-- ==== Sys2Proof/Word.lean ====
section
/-! DEFINITION. The words of the block: the two kinds of bit pattern, the byte, the request.
The block sees unsigned integers of a fixed width and nothing else (00_scope.md R7). -/

namespace Sys2Proof

/-- A BitPattern32: the raw encoding of a 32-bit floating value (00_scope.md R7, 30_encoding.md R30). -/
abbrev BitPattern32 := BitVec 32

/-- A BitPattern16: the raw encoding of a 16-bit floating value (30_encoding.md R31). -/
abbrev BitPattern16 := BitVec 16

/-- A byte of a host's text buffer (00_scope.md section 9.4). The block itself has no bytes (20_memory.md R21). -/
abbrev Byte := BitVec 8

/-- The request word `req`: `op` in bits 34:32 and the operand word `a` in bits 31:0 (30_encoding.md R33). -/
abbrev RequestWord := BitVec 35

/-- A request: the 35-bit word and, beside it, the natural number `max_length` (30_encoding.md R33). -/
structure Request where
  word : RequestWord
  maxLength : Nat
deriving DecidableEq, Repr

end Sys2Proof
end

