-- ==== Sys2Proof/Config.lean ====
section
/-! DEFINITION. What is fixed when the block is built: the parameter table of 00_scope.md R4, and the two parameters
that R5 leaves open. The open ones have no body: nothing proved about the block can depend on a value of theirs. -/

namespace Sys2Proof.Config

/-- The bias of the 32-bit format (00_scope.md R4). -/
abbrev bias32 : Nat := 127
/-- The bias of the 16-bit format (00_scope.md R4). -/
abbrev bias16 : Nat := 15
/-- `EMAX_FIELD32`: the all-one exponent field of the 32-bit format (30_encoding.md R30). -/
abbrev allOne32 : Nat := 255
/-- `EMAX_FIELD16`: the all-one exponent field of the 16-bit format (30_encoding.md R31). -/
abbrev allOne16 : Nat := 31
/-- `DROP`: the significand bits that narrowing discards (43_converter.md R59). -/
abbrev drop : Nat := 13
/-- `HALF`: half a unit in the last place, in the 13-bit remainder (42_rounding.md R51). -/
abbrev half : Nat := 0x1000
/-- `EMIN16`: the smallest unbiased exponent of a normal 16-bit value (43_converter.md R60). -/
abbrev emin16 : Int := -14
/-- `EMAX16`: the largest unbiased exponent of a finite 16-bit value (43_converter.md R62). -/
abbrev emax16 : Int := 15
/-- `EMIN32`: the smallest unbiased exponent of a normal 32-bit value (44_formatter.md R72). -/
abbrev emin32 : Int := -126

/-- Picks `NAN16_SIG` out of its 1023 admissible values. Free: no body (00_scope.md R5; DESIGN CHOICE, log 4). -/
opaque nan16SigIndex : Fin 1023

/-- `NAN16_SIG`: the significand of every NaN that `NARROW` returns, some fixed value from 1 to 0x3FF
(00_scope.md R5, 92_eei_decisions.md D8; DESIGN CHOICE, log 4). -/
def nan16Sig : BitVec 10 := BitVec.ofNat 10 (nan16SigIndex.val + 1)

/-- The spec's default for `NAN16_SIG`, for running examples only (92_eei_decisions.md D8). The machine does not use it. -/
def nan16SigDefault : BitVec 10 := 0x200#10

/-- Whether the host's terminator uses up one character of `max_length`. Free: no body (00_scope.md R5; DESIGN CHOICE, log 5). -/
opaque terminated : Bool

/-- `TERM`: the characters of `max_length` that the host's terminator uses up, 0 or 1
(00_scope.md R5, 92_eei_decisions.md D13; DESIGN CHOICE, log 5). -/
def term : Nat := if terminated then 1 else 0

end Sys2Proof.Config
end

