-- ==== Sys2Proof/Syntax.lean ====
section
/-! DEFINITION. The eight operations of 30_encoding.md R34, one constructor for each row of spec/opcode_table.json.
An operand has the width that the operation reads (20_memory.md R23); operand bits that are ignored (R37) are no part
of an instruction (DESIGN CHOICE, log 6). -/

namespace Sys2Proof

/-- One request, decoded: the operation and the operands it reads. -/
inductive Instr where
  /-- `DECOMP32`: the fields of a BitPattern32 (40_decomposer.md R40). -/
  | decomp32 (a : BitPattern32)
  /-- `DECOMP16`: the fields of a BitPattern16 (40_decomposer.md R41). -/
  | decomp16 (h : BitPattern16)
  /-- `CLASS32`: the class of a BitPattern32 (41_classifier.md R46). -/
  | class32 (a : BitPattern32)
  /-- `CLASS16`: the class of a BitPattern16 (41_classifier.md R47). -/
  | class16 (h : BitPattern16)
  /-- `ROUND`: rounding and renormalisation of a candidate mantissa (42_rounding.md R50). -/
  | round (main : BitVec 11) (remainder : BitVec 13) (sticky : Bool)
  /-- `NARROW`: conversion to the 16-bit format (43_converter.md R56). -/
  | narrow (a : BitPattern32)
  /-- `DECODE32`: a BitPattern32 as text of bounded length (44_formatter.md R76). -/
  | decode32 (a : BitPattern32) (maxLength : Nat)
  /-- `DECODE16`: a BitPattern16 as text of bounded length (44_formatter.md R77). -/
  | decode16 (h : BitPattern16) (maxLength : Nat)
deriving DecidableEq, Repr

end Sys2Proof
end

