-- ==== Sys2Proof/WellFormed.lean ====
section
/-! DEFINITION. What is checked before a value counts as one of the block's. Every instruction is well formed, because the
types of its operands carry their widths and no operand value is invalid (30_encoding.md R38); the checks are those of
raw numbers on their way in, and of the two open parameters. -/

namespace Sys2Proof

/-- No instruction is ill formed: "for each operation every value of the operand word is valid input"
(30_encoding.md R38). -/
def Instr.wellFormed : Instr → Bool
  | .decomp32 _ => true
  | .decomp16 _ => true
  | .class32 _ => true
  | .class16 _ => true
  | .round _ _ _ => true
  | .narrow _ => true
  | .decode32 _ _ => true
  | .decode16 _ _ => true

/-- A raw number is a request word if it fits 35 bits (30_encoding.md R33). -/
def wordWellFormed (w : Nat) : Bool := decide (w < 2 ^ 35)

/-- A raw number is an operation code if it fits three bits (30_encoding.md R34: all eight are assigned). -/
def opWellFormed (op : Nat) : Bool := decide (op < 8)

/-- The three raw inputs of `ROUND` are in range (30_encoding.md R35). -/
def roundWellFormed (main remainder sticky : Nat) : Bool :=
  decide (main ≤ 0x7FF) && decide (remainder ≤ 0x1FFF) && decide (sticky ≤ 1)

/-- A number is admissible as `NAN16_SIG`: from 1 to 0x3FF (00_scope.md R5). -/
def nan16SigWellFormed (n : Nat) : Bool := decide (1 ≤ n) && decide (n ≤ 0x3FF)

/-- A number is admissible as `TERM`: 0 or 1 (00_scope.md R5). -/
def termWellFormed (n : Nat) : Bool := decide (n ≤ 1)

/-- A response class code that the block can produce: 0 to 4 (30_encoding.md R36). -/
def classCodeWellFormed (n : Nat) : Bool := decide (n ≤ 4)

end Sys2Proof
end

