-- ==== Sys2Proof/Decode.lean ====
section
/-! DEFINITION. From a request to an instruction and back (30_encoding.md Part B). Decoding a request is total and rejects
nothing (R38); only a raw number too wide to be a request word is rejected, by name. -/

namespace Sys2Proof

/-- `req[34:32]`, the operation code (30_encoding.md R33). -/
def RequestWord.op (w : RequestWord) : BitVec 3 := w.extractLsb' 32 3

/-- `req[31:0]`, the operand word `a` (30_encoding.md R33). -/
def RequestWord.operand (w : RequestWord) : BitVec 32 := w.extractLsb' 0 32

/-- `req = (op << 32) | a` (30_encoding.md R33). -/
def requestWord (op : BitVec 3) (a : BitVec 32) : RequestWord := op ++ a

/-- `a[15:0]`: the BitPattern16 that `DECOMP16`, `CLASS16` and `DECODE16` read (30_encoding.md R34, R37). -/
def operandPattern16 (a : BitVec 32) : BitPattern16 := a.extractLsb' 0 16

/-- `a[10:0]`: `main` in the operand word of `ROUND` (30_encoding.md R35). -/
def operandMain (a : BitVec 32) : BitVec 11 := a.extractLsb' 0 11

/-- `a[23:11]`: `remainder` in the operand word of `ROUND` (30_encoding.md R35). -/
def operandRemainder (a : BitVec 32) : BitVec 13 := a.extractLsb' 11 13

/-- `a[24]`: `sticky` in the operand word of `ROUND` (30_encoding.md R35). -/
def operandSticky (a : BitVec 32) : Bool := a.extractLsb' 24 1 == 1#1

/-- The operation that a code selects, on an operand word and a `max_length` (30_encoding.md R34; DESIGN CHOICE of the
spec, log 17). -/
def decodeOp (op : BitVec 3) (a : BitVec 32) (maxLength : Nat) : Instr :=
  match op with
  | 0#3 => .decomp32 a
  | 1#3 => .decomp16 (operandPattern16 a)
  | 2#3 => .class32 a
  | 3#3 => .class16 (operandPattern16 a)
  | 4#3 => .round (operandMain a) (operandRemainder a) (operandSticky a)
  | 5#3 => .narrow a
  | 6#3 => .decode32 a maxLength
  | 7#3 => .decode16 (operandPattern16 a) maxLength

/-- The instruction that a request is. Total: no request is illegal (30_encoding.md R38). -/
def decode (r : Request) : Instr := decodeOp r.word.op r.word.operand r.maxLength

/-- Why a raw number is not a request. -/
inductive DecodeError where
  /-- It does not fit the 35 bits of a request word (30_encoding.md R33); raised by `decodeNumber` only. Safe (DESIGN CHOICE, log 7). -/
  | wordTooWide
deriving DecidableEq, Repr

/-- Decoding of a raw number with a `max_length`: rejects by name what is no 35-bit word, and nothing else. -/
def decodeNumber (w maxLength : Nat) : Except DecodeError Instr :=
  if wordWellFormed w then .ok (decode ⟨BitVec.ofNat 35 w, maxLength⟩) else .error .wordTooWide

/-- The instruction in the low `nbits` bits of `w`, numbered as spec/opcode_table.json numbers them. `max_length` has no
bits in the table, so it is 0 (DESIGN CHOICE, log 3). -/
def decodeTableWord (nbits w : Nat) : Option Instr :=
  match decodeNumber (w % 2 ^ nbits) 0 with
  | .ok i => some i
  | .error _ => none

/-- The operation code of an instruction (30_encoding.md R34). -/
def opcode : Instr → BitVec 3
  | .decomp32 _ => 0#3
  | .decomp16 _ => 1#3
  | .class32 _ => 2#3
  | .class16 _ => 3#3
  | .round _ _ _ => 4#3
  | .narrow _ => 5#3
  | .decode32 _ _ => 6#3
  | .decode16 _ _ => 7#3

/-- The operand word of an instruction (30_encoding.md R34, R35), ignored bits 0 (DESIGN CHOICE, log 6). -/
def operandWord : Instr → BitVec 32
  | .decomp32 a => a
  | .decomp16 h => 0#16 ++ h
  | .class32 a => a
  | .class16 h => 0#16 ++ h
  | .round main remainder sticky => 0#7 ++ (BitVec.ofBool sticky ++ (remainder ++ main))
  | .narrow a => a
  | .decode32 a _ => a
  | .decode16 h _ => 0#16 ++ h

/-- The `max_length` beside an instruction's word; 0 for the six operations that ignore it (30_encoding.md R37; DESIGN CHOICE, log 6). -/
def operandMaxLength : Instr → Nat
  | .decomp32 _ => 0
  | .decomp16 _ => 0
  | .class32 _ => 0
  | .class16 _ => 0
  | .round _ _ _ => 0
  | .narrow _ => 0
  | .decode32 _ n => n
  | .decode16 _ n => n

/-- The request that stands for an instruction: `req = (op << 32) | a` (30_encoding.md R33). -/
def encode (i : Instr) : Request := ⟨requestWord (opcode i) (operandWord i), operandMaxLength i⟩

/-- The operand bits that an operation ignores, as a mask on `a` (30_encoding.md R37). -/
def ignoredMask (op : BitVec 3) : BitVec 32 :=
  match op with
  | 0#3 => 0x00000000#32
  | 1#3 => 0xFFFF0000#32
  | 2#3 => 0x00000000#32
  | 3#3 => 0xFFFF0000#32
  | 4#3 => 0xFE000000#32
  | 5#3 => 0x00000000#32
  | 6#3 => 0x00000000#32
  | 7#3 => 0xFFFF0000#32

/-- Whether an operation is one of the two formatter operations, which take `max_length` (30_encoding.md R33). -/
def isFormatter (op : BitVec 3) : Bool := op == 6#3 || op == 7#3

/-- A request in which everything that its operation ignores is 0: the form that `encode` writes (DESIGN CHOICE, log 6). -/
def Request.canonical (r : Request) : Bool :=
  (r.word.operand &&& ignoredMask r.word.op == 0#32) && (isFormatter r.word.op || r.maxLength == 0)

/-- Two requests that differ at most in what their common operation ignores (30_encoding.md R37). -/
def Request.agreesWith (r q : Request) : Bool :=
  (r.word.op == q.word.op) &&
  (r.word.operand &&& ~~~ignoredMask r.word.op == q.word.operand &&& ~~~ignoredMask r.word.op) &&
  (!isFormatter r.word.op || r.maxLength == q.maxLength)

/-- A row of spec/opcode_table.json: a word is the row's operation if its bits under `mask` are `pattern`. -/
structure OpcodeRow where
  mnemonic : String
  pattern : RequestWord
  mask : RequestWord
deriving DecidableEq, Repr

/-- spec/opcode_table.json, row by row (its columns "match" and "mask"). -/
def opcodeTable : List OpcodeRow :=
  [⟨"DECOMP32", 0x000000000#35, 0x700000000#35⟩,
   ⟨"DECOMP16", 0x100000000#35, 0x700000000#35⟩,
   ⟨"CLASS32", 0x200000000#35, 0x700000000#35⟩,
   ⟨"CLASS16", 0x300000000#35, 0x700000000#35⟩,
   ⟨"ROUND", 0x400000000#35, 0x700000000#35⟩,
   ⟨"NARROW", 0x500000000#35, 0x700000000#35⟩,
   ⟨"DECODE32", 0x600000000#35, 0x700000000#35⟩,
   ⟨"DECODE16", 0x700000000#35, 0x700000000#35⟩]

/-- Whether a word is the row's operation. -/
def OpcodeRow.covers (row : OpcodeRow) (w : RequestWord) : Bool := w &&& row.mask == row.pattern

/-- The mnemonic of an instruction (30_encoding.md R34, R39). -/
def mnemonic : Instr → String
  | .decomp32 _ => "DECOMP32"
  | .decomp16 _ => "DECOMP16"
  | .class32 _ => "CLASS32"
  | .class16 _ => "CLASS16"
  | .round _ _ _ => "ROUND"
  | .narrow _ => "NARROW"
  | .decode32 _ _ => "DECODE32"
  | .decode16 _ _ => "DECODE16"

/-- The document's own name of the three operations that have an API entry point (30_encoding.md R39). -/
def apiName : Instr → Option String
  | .decomp32 _ => none
  | .decomp16 _ => none
  | .class32 _ => none
  | .class16 _ => none
  | .round _ _ _ => none
  | .narrow _ => some "narrow"
  | .decode32 _ _ => some "decode"
  | .decode16 _ _ => some "decode16"

end Sys2Proof
end

