-- ==== Sys2Proof/Machine/State.lean ====
section
/-! DEFINITION. The block has no architectural state (10_state.md R10). State holds its two boundaries, the request
presented and the response produced, because the step of this row's form has no other place for the argument and the
result of R10's `response = f(request)` (DESIGN CHOICE, log 1). -/

namespace Sys2Proof.Machine

/-- The five classes (41_classifier.md R45), in the document's order. -/
inductive FpClass where
  | zero
  | subnormal
  | normal
  | infinity
  | nan
deriving DecidableEq, Repr

/-- The Decomposed Value with its derived unbiased exponent: the response of `DECOMP32` and `DECOMP16`
(30_encoding.md R34; 40_decomposer.md R42). The widths are those of the format's exponent field and significand. -/
structure Decomposed (expWidth sigWidth : Nat) where
  sign : BitVec 1
  bexp : BitVec expWidth
  sig : BitVec sigWidth
  uexp : Int
deriving DecidableEq, Repr

/-- A text: its characters in reading order (00_scope.md section 9.4, 20_memory.md R28; DESIGN CHOICE, log 10). -/
abbrev Text := List Char

/-- The response record of an operation (30_encoding.md R34). -/
inductive Response where
  | decomp32 (d : Decomposed 8 23)
  | decomp16 (d : Decomposed 5 10)
  | class32 (c : FpClass)
  | class16 (c : FpClass)
  | round (mainOut : BitVec 11) (expInc : BitVec 1)
  | narrow (h : BitPattern16)
  | decode32 (text : Text)
  | decode16 (text : Text)
deriving DecidableEq, Repr

/-- The block's two boundaries. -/
structure State where
  /-- The request the host presents: an input, no state of the block (30_encoding.md R33; DESIGN CHOICE, log 1). -/
  request : Request
  /-- The response of the last evaluation; absent when none has been made (70_reset_and_hazards.md R95; DESIGN CHOICE, log 2). -/
  response : Option Response
deriving DecidableEq, Repr

/-- Nothing stops the block: "No operation raises an exception, for any input" (60_exceptions.md R80). No constructor. -/
inductive Fault : Type
deriving DecidableEq, Repr

/-- Why the model gives a request no meaning. -/
inductive Refusal where
  /-- The instruction has no meaning in the model yet, named as spec/opcode_table.json names it. No arm raises it. Safe. -/
  | notModelled (mnemonic : String)
  /-- The operation is not one of the four CORE components; raised by the CORE-only variant of the machine alone, which
  must refuse `DECODE32` and `DECODE16` by name (30_encoding.md R38; DESIGN CHOICE, log 13). Safe. -/
  | outsideCore (mnemonic : String)
deriving DecidableEq, Repr

/-- Before the first evaluation. The block itself has nothing to reset (10_state.md R17, 70_reset_and_hazards.md R90); the
word 0 and `max_length` 0 that stand at its input, and that no response is there, are the model's choice (DESIGN CHOICE, log 2). -/
def State.reset : State := { request := ⟨0#35, 0⟩, response := none }

end Sys2Proof.Machine
end

