-- ==== Sys2Proof/Machine/Ops.lean ====
section
/-! DEFINITION. The operations that the meanings share. There is no register file, no memory, no flag and no exception
entry to operate on (10_state.md R10 to R15, 60_exceptions.md R80, R84): every operation ends by producing its response. -/

namespace Sys2Proof.Machine

/-- The result of one step. -/
abbrev StepResult := Host.Outcome State Fault Refusal

/-- Produce a response. It is the only thing that an operation does (60_exceptions.md R80; 20_memory.md R23): no fault,
no refusal, and the request is the host's and stays. -/
def respond (r : Response) (s : State) : StepResult := .next { s with response := some r }

/-- The host presents a request (70_reset_and_hazards.md R92: any request may follow any other). The response of the last
evaluation stays where it is until the next one is produced. -/
def State.present (r : Request) (s : State) : State := { s with request := r }

end Sys2Proof.Machine
end

