-- ==== Sys2Proof/Machine/Operands.lean ====
section
/-! DEFINITION. Field extraction and reassembly (30_encoding.md R30 to R32, R35): the only operand forms there are. The
places of the 16-bit fields are DEDUCED by the spec itself (log 20). -/

namespace Sys2Proof.Machine

/-- `v[hi:lo]` of a non-negative integer: `floor(v / 2^lo) mod 2^(hi-lo+1)` (00_scope.md section 9.1). -/
def slice (v hi lo : Nat) : Nat := v / 2 ^ lo % 2 ^ (hi - lo + 1)

/-- `b[31]` (30_encoding.md R30). -/
def sign32 (a : BitPattern32) : BitVec 1 := a.extractLsb' 31 1
/-- `b[30:23]` (30_encoding.md R30). -/
def bexp32 (a : BitPattern32) : BitVec 8 := a.extractLsb' 23 8
/-- `b[22:0]` (30_encoding.md R30). -/
def sig32 (a : BitPattern32) : BitVec 23 := a.extractLsb' 0 23

/-- `h[15]` (30_encoding.md R31). -/
def sign16 (h : BitPattern16) : BitVec 1 := h.extractLsb' 15 1
/-- `h[14:10]` (30_encoding.md R31). -/
def bexp16 (h : BitPattern16) : BitVec 5 := h.extractLsb' 10 5
/-- `h[9:0]` (30_encoding.md R31). -/
def sig16 (h : BitPattern16) : BitVec 10 := h.extractLsb' 0 10

/-- `(s << 31) | (E << 23) | m`: a 32-bit pattern from its fields (30_encoding.md R32). -/
def assemble32 (s bexp sig : Nat) : Nat := (s <<< 31) ||| (bexp <<< 23) ||| sig

/-- `(s << 15) | (E16 << 10) | f`: a 16-bit pattern from its fields (30_encoding.md R32). -/
def assemble16 (s bexp sig : Nat) : Nat := (s <<< 15) ||| (bexp <<< 10) ||| sig

/-- `a = (sticky << 24) | (remainder << 11) | main`: the operand word of `ROUND` (30_encoding.md R35). -/
def packRound (main remainder sticky : Nat) : Nat := (sticky <<< 24) ||| (remainder <<< 11) ||| main

end Sys2Proof.Machine
end

