-- ==== Sys2Proof/Machine/Decomposer.lean ====
section
/-! DEFINITION. The decomposer, `DECOMP32` and `DECOMP16` (40_decomposer.md). The other components start from its result. -/

namespace Sys2Proof.Machine

/-- `unbiased_exponent = biased_exponent - bias`, for every value of the exponent field (40_decomposer.md R42; DESIGN
CHOICE of the spec, log 18). -/
def unbiased (bexp bias : Nat) : Int := (bexp : Int) - (bias : Int)

/-- The fields of a BitPattern32 and its unbiased exponent (40_decomposer.md R40). -/
def decompose32 (a : BitPattern32) : Decomposed 8 23 :=
  { sign := sign32 a, bexp := bexp32 a, sig := sig32 a, uexp := unbiased (bexp32 a).toNat Config.bias32 }

/-- The fields of a BitPattern16 and its unbiased exponent (40_decomposer.md R41). -/
def decompose16 (h : BitPattern16) : Decomposed 5 10 :=
  { sign := sign16 h, bexp := bexp16 h, sig := sig16 h, uexp := unbiased (bexp16 h).toNat Config.bias16 }

/-- `DECOMP32` (40_decomposer.md R40). -/
def execDecomp32 (a : BitPattern32) (s : State) : StepResult := respond (.decomp32 (decompose32 a)) s

/-- `DECOMP16` (40_decomposer.md R41). -/
def execDecomp16 (h : BitPattern16) (s : State) : StepResult := respond (.decomp16 (decompose16 h)) s

end Sys2Proof.Machine
end

