-- ==== Sys2Proof/Machine/Classifier.lean ====
section
/-! DEFINITION. The classifier, `CLASS32` and `CLASS16` (41_classifier.md). -/

namespace Sys2Proof.Machine

/-- The class of a Decomposed Value, from its biased exponent and its significand alone; `allOne` is the all-one exponent
field of the format (41_classifier.md R45). -/
def classify (bexp sig allOne : Nat) : FpClass :=
  if bexp = 0 then (if sig = 0 then .zero else .subnormal)
  else if bexp = allOne then (if sig = 0 then .infinity else .nan)
  else .normal

/-- The class of a BitPattern32 (41_classifier.md R46). -/
def class32 (a : BitPattern32) : FpClass :=
  classify (decompose32 a).bexp.toNat (decompose32 a).sig.toNat Config.allOne32

/-- The class of a BitPattern16 (41_classifier.md R47). -/
def class16 (h : BitPattern16) : FpClass :=
  classify (decompose16 h).bexp.toNat (decompose16 h).sig.toNat Config.allOne16

/-- The 3-bit code of a class (30_encoding.md R36). -/
def FpClass.code : FpClass → BitVec 3
  | .zero => 0#3
  | .subnormal => 1#3
  | .normal => 2#3
  | .infinity => 3#3
  | .nan => 4#3

/-- `CLASS32` (41_classifier.md R46). -/
def execClass32 (a : BitPattern32) (s : State) : StepResult := respond (.class32 (class32 a)) s

/-- `CLASS16` (41_classifier.md R47). -/
def execClass16 (h : BitPattern16) (s : State) : StepResult := respond (.class16 (class16 h)) s

end Sys2Proof.Machine
end

