-- ==== Sys2Proof/Machine/Flags.lean ====
section
/-! DEFINITION. The block has no status flag and no condition code (10_state.md R13, 60_exceptions.md R81). The two
conditions that its rounding computes inside one evaluation are here. -/

namespace Sys2Proof.Machine

/-- `sticky = ((1<<shift)-1) & m != 0`: whether a nonzero bit of `m` is lost in a right shift by `shift`
(43_converter.md R60, 42_rounding.md R53). -/
def lostBits (m shift : Nat) : Bool := m &&& ((1 <<< shift) - 1) != 0

/-- The round-up decision: more than half a unit, or exactly half with `main` odd or `sticky` set (42_rounding.md R51). -/
def roundUp (main remainder : Nat) (sticky : Bool) : Bool :=
  decide (remainder > Config.half) || (remainder == Config.half && (main.testBit 0 || sticky))

end Sys2Proof.Machine
end

