-- ==== Sys2Proof/Machine/Rounding.lean ====
section
/-! DEFINITION. The rounding logic, `ROUND` (42_rounding.md): round to nearest, ties to even, and renormalisation. -/

namespace Sys2Proof.Machine

/-- Steps 5 and 6 on exact integers: `(main_out, exp_inc)` (42_rounding.md R50, R52). -/
def roundMain (main remainder : Nat) (sticky : Bool) : Nat × Nat :=
  let t := main + (if roundUp main remainder sticky then 1 else 0)
  if t > 0x7FF then (t >>> 1, 1) else (t, 0)

/-- `ROUND` (42_rounding.md R50). Both results fit their widths (R54). -/
def execRound (main : BitVec 11) (remainder : BitVec 13) (sticky : Bool) (s : State) : StepResult :=
  let r := roundMain main.toNat remainder.toNat sticky
  respond (.round (BitVec.ofNat 11 r.1) (BitVec.ofNat 1 r.2)) s

end Sys2Proof.Machine
end

