-- ==== Sys2Proof/Machine/Converter.lean ====
section
/-! DEFINITION. The narrowing converter, `NARROW` (43_converter.md), step by step on unbounded integers
(00_scope.md R6). It depends on the decomposer, the classifier and the rounding logic, not on the formatter (R2). -/

namespace Sys2Proof.Machine

/-- What steps 3 and 4 hand to the rounding: the exponent, the candidate mantissa with its leading bit, the 13 discarded
bits and whether a nonzero bit was lost below them (10_state.md R16: local values, no state). -/
structure Candidate where
  e : Int
  main : Nat
  remainder : Nat
  sticky : Bool
deriving DecidableEq, Repr

/-- Step 3: re-attach the implicit one and split off the discarded bits; nothing is lost below them yet
(43_converter.md R59; DESIGN CHOICE, log 9). -/
def candidate (m : Nat) (e : Int) : Candidate :=
  { e := e, main := (m >>> Config.drop) ||| (1 <<< 10), remainder := m &&& 0x1FFF, sticky := false }

/-- Step 4 for `e < -14`: shift the 24-bit significand to the subnormal grid and pin the exponent
(43_converter.md R60). Shifts are mathematical, however large (00_scope.md R6; DESIGN CHOICE, log 8). -/
def alignSubnormal (m : Nat) (e : Int) : Candidate :=
  let shift := (-(e + 14)).toNat
  let aligned := (m ||| (1 <<< 23)) >>> shift
  { e := Config.emin16, main := aligned >>> Config.drop, remainder := aligned &&& 0x1FFF, sticky := lostBits m shift }

/-- Steps 3 and 4: which path a value takes is decided by its exponent alone (43_converter.md R60, R64). -/
def align (m : Nat) (e : Int) : Candidate :=
  if e < Config.emin16 then alignSubnormal m e else candidate m e

/-- Steps 7 and 8: saturate on the rounded exponent, else emit a subnormal or a normal encoding on the rounded mantissa
(43_converter.md R62, R63). -/
def emit (sign : Nat) (e : Int) (main : Nat) : Nat :=
  if e > Config.emax16 then assemble16 sign 31 0
  else if main < 0x400 ∧ e = Config.emin16 then assemble16 sign 0 (main &&& 0x3FF)
  else assemble16 sign ((e + 15).toNat &&& 0x1F) (main &&& 0x3FF)

/-- Steps 5 to 8: round, add the carry to the exponent, emit (43_converter.md R61 to R63). -/
def finish (sign : Nat) (c : Candidate) : Nat :=
  let r := roundMain c.main c.remainder c.sticky
  emit sign (c.e + (r.2 : Int)) r.1

/-- `NARROW` on exact integers, with the NaN significand as a parameter. A NaN is recognised before anything else and keeps
its sign (43_converter.md R57, R58, R64; DESIGN CHOICE, log 11). -/
def narrowNat (nanSig : Nat) (a : BitPattern32) : Nat :=
  let d := decompose32 a
  if class32 a = .nan then assemble16 d.sign.toNat 31 nanSig
  else finish d.sign.toNat (align d.sig.toNat d.uexp)

/-- The 16-bit pattern that `NARROW` gives when `NAN16_SIG` is `nanSig`. The exact result fits 16 bits. -/
def narrowWith (nanSig : BitVec 10) (a : BitPattern32) : BitPattern16 :=
  BitVec.ofNat 16 (narrowNat nanSig.toNat a)

/-- The 16-bit pattern that the block gives (43_converter.md R56); its `NAN16_SIG` is free (DESIGN CHOICE, log 4). -/
def narrow (a : BitPattern32) : BitPattern16 := narrowWith Config.nan16Sig a

/-- `NARROW` (43_converter.md R56). -/
def execNarrow (a : BitPattern32) (s : State) : StepResult := respond (.narrow (narrow a)) s

end Sys2Proof.Machine
end

