-- ==== Sys2Proof/Machine/Formatter.lean ====
section
/-! DEFINITION. The formatter, `DECODE32` and `DECODE16` (44_formatter.md). It depends on the decomposer and the
classifier, not on the converter (00_scope.md R2). -/

namespace Sys2Proof.Machine

/-- The sign character (44_formatter.md R72). -/
def signChar (sign : BitVec 1) : Char := if sign = 0#1 then '+' else '-'

/-- `bin_N(v)`: exactly `n` binary digits, most significant first (00_scope.md section 9.4, 44_formatter.md R73). -/
def binText (n v : Nat) : Text := (List.range n).map fun k => if v.testBit (n - 1 - k) then '1' else '0'

/-- The decimal digits of `n`, given a bound on their number. -/
def decDigits : Nat → Nat → Text
  | 0, _ => []
  | fuel + 1, n => if n < 10 then [Nat.digitChar n] else decDigits fuel (n / 10) ++ [Nat.digitChar (n % 10)]

/-- `dec(z)`: decimal digits without leading zeros, after a minus sign if `z` is negative (44_formatter.md R74; DESIGN CHOICE, log 12). -/
def dec (z : Int) : Text :=
  if z < 0 then '-' :: decDigits (z.natAbs + 1) z.natAbs else decDigits (z.natAbs + 1) z.natAbs

/-- The layout with digits: `<sign><lead>.<mantissa bits> 2^<exponent>` (44_formatter.md R72). -/
def digitsText (sign : BitVec 1) (lead : Char) (sigWidth sig : Nat) (x : Int) : Text :=
  [signChar sign, lead, '.'] ++ binText sigWidth sig ++ [' ', '2', '^'] ++ dec x

/-- The natural rendering of a Decomposed Value of a class; `minExp` is the format's minimum normal exponent, which is
what a Subnormal prints (44_formatter.md R71, R72). -/
def naturalText {expWidth sigWidth : Nat} (c : FpClass) (d : Decomposed expWidth sigWidth) (minExp : Int) : Text :=
  match c with
  | .infinity => [signChar d.sign, 'I', 'N', 'F']
  | .nan => ['N', 'a', 'N']
  | .zero => [signChar d.sign, '0']
  | .normal => digitsText d.sign '1' sigWidth d.sig.toNat d.uexp
  | .subnormal => digitsText d.sign '0' sigWidth d.sig.toNat minExp

/-- The natural rendering of a BitPattern32 (44_formatter.md R76). -/
def natural32 (a : BitPattern32) : Text := naturalText (class32 a) (decompose32 a) Config.emin32

/-- The natural rendering of a BitPattern16 (44_formatter.md R77). -/
def natural16 (h : BitPattern16) : Text := naturalText (class16 h) (decompose16 h) Config.emin16

/-- `cap = max_length - TERM` if `max_length > TERM`, else 0 (44_formatter.md R75). -/
def capacity (term maxLength : Nat) : Nat := if maxLength > term then maxLength - term else 0

/-- `take(cap, natural)`: a prefix, cut at a character boundary, unmarked (44_formatter.md R75, R78). -/
def bounded (term maxLength : Nat) (natural : Text) : Text := natural.take (capacity term maxLength)

/-- `DECODE32` (44_formatter.md R76); its `TERM` is free (DESIGN CHOICE, log 5). -/
def execDecode32 (a : BitPattern32) (maxLength : Nat) (s : State) : StepResult :=
  respond (.decode32 (bounded Config.term maxLength (natural32 a))) s

/-- `DECODE16` (44_formatter.md R77); its `TERM` is free (DESIGN CHOICE, log 5). -/
def execDecode16 (h : BitPattern16) (maxLength : Nat) (s : State) : StepResult :=
  respond (.decode16 (bounded Config.term maxLength (natural16 h))) s

/-- The nineteen characters that a text is made of (93_implementation_defined.md G7). -/
def textAlphabet : Text :=
  [' ', '+', '-', '.', '0', '1', '2', '3', '4', '5', '6', '7', '8', '9', 'F', 'I', 'N', '^', 'a']

/-- The byte of a character: its ASCII code (00_scope.md section 9.4, 92_eei_decisions.md D12; DESIGN CHOICE, log 10). -/
def asciiByte (c : Char) : Byte := BitVec.ofNat 8 c.toNat

/-- What the HOST's buffer of `maxLength` bytes receives of a text: character `k` in byte `k`, then the terminator if the
host uses one, and nothing at all when `maxLength = 0` (20_memory.md R28, 44_formatter.md R75). The buffer and the
terminator are the host's (10_state.md R15); the block returns the text. DESIGN CHOICE (log 15). -/
def bufferBytes (term : Nat) (terminator : Byte) (maxLength : Nat) (text : Text) : List Byte :=
  if maxLength = 0 then [] else text.map asciiByte ++ List.replicate term terminator

end Sys2Proof.Machine
end

