-- ==== Sys2Proof/Machine/Dispatch.lean ====
section
/-! DEFINITION. One arm for each operation of 30_encoding.md R34. -/

namespace Sys2Proof.Machine

def exec (i : Instr) (s : State) : Host.Outcome State Fault Refusal :=
  match i with
  | .decomp32 a => Sys2Proof.Machine.execDecomp32 a s
  | .decomp16 h => Sys2Proof.Machine.execDecomp16 h s
  | .class32 a => Sys2Proof.Machine.execClass32 a s
  | .class16 h => Sys2Proof.Machine.execClass16 h s
  | .round main remainder sticky => Sys2Proof.Machine.execRound main remainder sticky s
  | .narrow a => Sys2Proof.Machine.execNarrow a s
  | .decode32 a maxLength => Sys2Proof.Machine.execDecode32 a maxLength s
  | .decode16 h maxLength => Sys2Proof.Machine.execDecode16 h maxLength s

end Sys2Proof.Machine
end

