-- ==== Sys2Proof/Machine/Step.lean ====
section
/-! DEFINITION. One evaluation: decode the request presented and produce its response (10_state.md R10, R12).
No time passes: DESIGN CHOICE of the spec (log 14). -/

namespace Sys2Proof.Machine

/-- One step is one evaluation of the request presented (70_reset_and_hazards.md R94, R95). There is no program counter
to move: the block does not sequence operations (10_state.md R12). -/
def step (s : State) : Host.Outcome State Fault Refusal := exec (decode s.request) s

/-- `s` with the request whose low `nbits` bits are `w`, and `max_length` 0, presented: that is where `step` takes its
instruction from (DESIGN CHOICE, log 3). -/
def State.withFetchWord (s : State) (nbits w : Nat) : State :=
  s.present ⟨BitVec.ofNat 35 (w % 2 ^ nbits), 0⟩

end Sys2Proof.Machine
end

