-- ==== Sys2Proof/Machine/Instances.lean ====
section
/-! DEFINITION. Several instances of the block beside each other (60_exceptions.md R86, 20_memory.md R25). They share
nothing, so a system of them is a list, and an evaluation by one of them touches that one alone. One at a time, in any
order: DESIGN CHOICE (log 19). -/

namespace Sys2Proof.Machine

/-- Instance `k` evaluates the request `r`; there is nothing to evaluate where no such instance exists. -/
def evaluateAt (k : Nat) (r : Request) (blocks : List State) : Host.Outcome (List State) Fault Refusal :=
  match blocks[k]? with
  | none => .next blocks
  | some s =>
    match step (s.present r) with
    | .next t => .next (blocks.set k t)
    | .fault f => .fault f
    | .refused f => .refused f

/-- A schedule: which instance evaluates which request, in the order in which they happen. -/
def evaluateAll : List (Nat × Request) → List State → Host.Outcome (List State) Fault Refusal
  | [], blocks => .next blocks
  | (k, r) :: rest, blocks =>
    match evaluateAt k r blocks with
    | .next blocks' => evaluateAll rest blocks'
    | .fault f => .fault f
    | .refused f => .refused f

end Sys2Proof.Machine
end

