-- ==== Sys2Proof/Machine/NarrowForms.lean ====
section
/-! DEFINITION. Other forms of the converter that the spec describes, written independently of Converter.lean, for
statements that all of them are one function: the whole algorithm in one piece and its clamped form (43_converter.md R67),
and an implementation in fixed-width logic with the least widths of 70_reset_and_hazards.md R93. The machine runs none of
them. The arrangement is a DESIGN CHOICE (log 21). -/

namespace Sys2Proof.Machine

/-- The one piece of pseudocode of 43_converter.md R67, with step 4 as a parameter: it takes `m` and
`shift = -(e + 14) = 113 - E` to `(aligned, sticky)`. -/
def narrowPieceWith (step4 : Nat → Nat → Nat × Bool) (nanSig a : Nat) : Nat :=
  let s : Nat := a / 2 ^ 31
  let E : Nat := a / 2 ^ 23 % 2 ^ 8
  let m : Nat := a % 2 ^ 23
  let e1 : Int := (E : Int) - 127
  if E = 255 ∧ m ≠ 0 then (s <<< 15) ||| 0x7C00 ||| nanSig
  else
    let low := e1 < -14
    let r := step4 m (113 - E)
    let main3 : Nat := if low then r.1 >>> 13 else (m >>> 13) ||| (1 <<< 10)
    let remainder := if low then r.1 &&& 0x1FFF else m &&& 0x1FFF
    let sticky := if low then r.2 else false
    let e4 : Int := if low then -14 else e1
    let main5 :=
      if remainder > 0x1000 then main3 + 1
      else if remainder = 0x1000 ∧ (main3 % 2 = 1 ∨ sticky = true) then main3 + 1
      else main3
    let e6 := if main5 > 0x7FF then e4 + 1 else e4
    let main6 := if main5 > 0x7FF then main5 >>> 1 else main5
    if e6 > 15 then (s <<< 15) ||| 0x7C00
    else if main6 < 0x400 ∧ e6 = -14 then (s <<< 15) ||| (main6 &&& 0x3FF)
    else (s <<< 15) ||| (((e6 + 15).toNat &&& 0x1F) <<< 10) ||| (main6 &&& 0x3FF)

/-- Step 4 as written: the shift amount is as large as 113 (43_converter.md R67). -/
def step4Full (m shift : Nat) : Nat × Bool :=
  ((m ||| (1 <<< 23)) >>> shift, decide (m &&& ((1 <<< shift) - 1) ≠ 0))

/-- Step 4 without large shifts: from 24 on everything is shifted out (43_converter.md R67, "equivalent form"). -/
def step4Clamped (m shift : Nat) : Nat × Bool :=
  if shift ≥ 24 then (0, decide (m ≠ 0)) else step4Full m shift

/-- `NARROW` as the one piece of 43_converter.md R67. -/
def narrowPiece (nanSig a : Nat) : Nat := narrowPieceWith step4Full nanSig a

/-- `NARROW` in the clamped form of 43_converter.md R67. -/
def narrowClamped (nanSig a : Nat) : Nat := narrowPieceWith step4Clamped nanSig a

/-- Step 4's shift amount in 7 bits, clamped at 24 into 5 bits (70_reset_and_hazards.md R93). -/
def fixedShift (e : BitVec 9) : BitVec 5 :=
  let shift : BitVec 7 := (-(e + 14#9)).truncate 7
  if shift ≥ 24#7 then 24#5 else shift.truncate 5

/-- `aligned` in 23 bits, from a 24-bit significand (70_reset_and_hazards.md R93). -/
def fixedAligned (m : BitVec 23) (shift : BitVec 5) : BitVec 23 :=
  ((1#1 ++ m : BitVec 24) >>> shift).truncate 23

/-- `sticky` from 23-bit values: the mask of a clamped shift is all ones (70_reset_and_hazards.md R93). -/
def fixedSticky (m : BitVec 23) (shift : BitVec 5) : Bool :=
  if shift ≥ 24#5 then m != 0#23 else m &&& ((1#23 <<< shift) - 1#23) != 0#23

/-- Steps 5 to 8 in fixed width: a 12-bit incremented mantissa, a 9-bit signed exponent (70_reset_and_hazards.md R93). -/
def fixedFinish (s : BitVec 1) (e : BitVec 9) (main : BitVec 11) (remainder : BitVec 13) (sticky : Bool) : BitPattern16 :=
  let up := remainder > 0x1000#13 || (remainder == 0x1000#13 && (main.getLsbD 0 || sticky))
  let t : BitVec 12 := (0#1 ++ main : BitVec 12) + (if up then 1#12 else 0#12)
  let carry := t > 0x7FF#12
  let rounded : BitVec 11 := if carry then (t >>> 1).truncate 11 else t.truncate 11
  let e' : BitVec 9 := if carry then e + 1#9 else e
  if (15#9).slt e' then (s ++ 0x1F#5 ++ 0#10 : BitVec 16)
  else if rounded < 0x400#11 && e' == -14#9 then (s ++ 0#5 ++ rounded.extractLsb' 0 10 : BitVec 16)
  else (s ++ (e' + 15#9).truncate 5 ++ rounded.extractLsb' 0 10 : BitVec 16)

/-- `NARROW` with every intermediate value at its least width (70_reset_and_hazards.md R93). -/
def narrowFixed (nanSig : BitVec 10) (a : BitPattern32) : BitPattern16 :=
  let s : BitVec 1 := a.extractLsb' 31 1
  let E : BitVec 8 := a.extractLsb' 23 8
  let m : BitVec 23 := a.extractLsb' 0 23
  let e : BitVec 9 := (0#1 ++ E : BitVec 9) - 127#9
  if E == 0xFF#8 && m != 0#23 then (s ++ 0x1F#5 ++ nanSig : BitVec 16)
  else if e.slt (-14#9) then
    let aligned := fixedAligned m (fixedShift e)
    fixedFinish s (-14#9) (0#1 ++ aligned.extractLsb' 13 10 : BitVec 11) (aligned.extractLsb' 0 13)
      (fixedSticky m (fixedShift e))
  else fixedFinish s e (1#1 ++ m.extractLsb' 13 10 : BitVec 11) (m.extractLsb' 0 13) false

end Sys2Proof.Machine
end

