-- ==== Sys2Proof/Machine/Value.lean ====
section
/-! DEFINITION. What a pattern means as a number (30_encoding.md section A.4). No operation uses it: it is there to state
what `NARROW` promises (43_converter.md R55, R66). PRESUMED: the spec marks the formulas as general knowledge (log 16). -/

namespace Sys2Proof.Machine

/-- `(-1)^s`. -/
def signFactor (sign : BitVec 1) : ℚ := if sign = 0#1 then 1 else -1

/-- The number that a finite BitPattern32 stands for: `(-1)^s * 2^(E - 127) * (1 + f / 2^23)` for Normal,
`(-1)^s * 2^(1 - 127) * (f / 2^23)` for Subnormal and Zero (30_encoding.md section A.4). Meant for finite patterns only. -/
def value32 (a : BitPattern32) : ℚ :=
  if (bexp32 a).toNat = 0 then signFactor (sign32 a) * 2 ^ (-126 : ℤ) * (((sig32 a).toNat : ℚ) / 2 ^ 23)
  else signFactor (sign32 a) * 2 ^ (((bexp32 a).toNat : ℤ) - 127) * (1 + ((sig32 a).toNat : ℚ) / 2 ^ 23)

/-- The number that a finite BitPattern16 stands for: `(-1)^s * 2^(E - 15) * (1 + f / 2^10)` for Normal,
`(-1)^s * 2^(1 - 15) * (f / 2^10)` for Subnormal and Zero (30_encoding.md section A.4). Meant for finite patterns only. -/
def value16 (h : BitPattern16) : ℚ :=
  if (bexp16 h).toNat = 0 then signFactor (sign16 h) * 2 ^ (-14 : ℤ) * (((sig16 h).toNat : ℚ) / 2 ^ 10)
  else signFactor (sign16 h) * 2 ^ (((bexp16 h).toNat : ℤ) - 15) * (1 + ((sig16 h).toNat : ℚ) / 2 ^ 10)

/-- Finite: neither Infinity nor NaN. -/
def finite32 (a : BitPattern32) : Bool := decide ((bexp32 a).toNat ≠ Config.allOne32)

/-- Finite: neither Infinity nor NaN. -/
def finite16 (h : BitPattern16) : Bool := decide ((bexp16 h).toNat ≠ Config.allOne16)

/-- The magnitude of a finite BitPattern32 in units of 2^-149, an exact integer. -/
def scaled32 (a : BitPattern32) : Nat :=
  if (bexp32 a).toNat = 0 then (sig32 a).toNat else (2 ^ 23 + (sig32 a).toNat) * 2 ^ ((bexp32 a).toNat - 1)

/-- The magnitude of a finite BitPattern16 in units of 2^-149, an exact integer. -/
def scaled16 (h : BitPattern16) : Nat :=
  if (bexp16 h).toNat = 0 then (sig16 h).toNat * 2 ^ 125
  else (2 ^ 10 + (sig16 h).toNat) * 2 ^ ((bexp16 h).toNat + 124)

end Sys2Proof.Machine
end

