-- ==== Sys2Proof/Machine/HostRun.lean ====
section
/-! DEFINITION. What a host does with the block: evaluate one request, issue a list of them one after another
(10_state.md R12, 70_reset_and_hazards.md R95, 95_test_vectors.md section 4), or use a variant of it that has the CORE
components alone (30_encoding.md R38). -/

namespace Sys2Proof.Machine

/-- The response field of a step's result, if it is a next state that holds one. -/
def responseOf : StepResult → Option Response
  | .next t => t.response
  | .fault _ => none
  | .refused _ => none

/-- Present a request and take the response of one step. -/
def evaluate (s : State) (r : Request) : Option Response := responseOf (step (s.present r))

/-- Issue a list of requests one after another, each in the state that the one before it left, and collect the responses;
the run ends where a step gives no response. -/
def serve : State → List Request → List Response
  | _, [] => []
  | s, r :: rs =>
    match step (s.present r) with
    | .next t => match t.response with
      | some x => x :: serve t rs
      | none => []
    | .fault _ => []
    | .refused _ => []

/-- `NARROW` put together by a host from `CLASS32`, `DECOMP32` and `ROUND` and the arithmetic of steps 3, 4, 7 and 8
(95_test_vectors.md P2; 43_converter.md R59 to R63). -/
def rebuildNarrow (s : State) (nanSig : Nat) (a : BitPattern32) : Option Nat :=
  match evaluate s ⟨requestWord 2#3 a, 0⟩, evaluate s ⟨requestWord 0#3 a, 0⟩ with
  | some (.class32 c), some (.decomp32 d) =>
    if c = .nan then some (assemble16 d.sign.toNat 31 nanSig)
    else
      let x := align d.sig.toNat d.uexp
      match evaluate s ⟨requestWord 4#3 (BitVec.ofNat 32 (packRound x.main x.remainder x.sticky.toNat)), 0⟩ with
      | some (.round mainOut expInc) => some (emit d.sign.toNat (x.e + (expInc.toNat : Int)) mainOut.toNat)
      | _ => none
  | _, _ => none

/-- `exec` of a block with the four CORE components alone: it does not have the two formatter operations and refuses them
by name (00_scope.md R3, 30_encoding.md R38; DESIGN CHOICE, log 13). The machine of this row is the full block, not this one. -/
def execCoreOnly (i : Instr) (s : State) : StepResult :=
  if isFormatter (opcode i) then .refused (.outsideCore (mnemonic i)) else exec i s

/-- One step of a CORE-only block (30_encoding.md R38). -/
def stepCoreOnly (s : State) : StepResult := execCoreOnly (decode s.request) s

end Sys2Proof.Machine
end

