-- ==== Sys2Proof/Safety.lean ====
section
/-! DEFINITION. What a response of the block always satisfies, and what a safe run is: one that gives a next state at every
step. -/

namespace Sys2Proof

open Machine

/-- What the spec promises of a response record by itself, whichever request it answers: the derived exponent is the field
less the bias (40_decomposer.md R42), a carry out of the rounding leaves 0x400 (42_rounding.md R52), a NaN result has the
one fixed significand (43_converter.md R58), and a text is at most 33 or 19 characters of the alphabet
(44_formatter.md R79). -/
def ResponseOk : Response → Prop
  | .decomp32 d => d.uexp = unbiased d.bexp.toNat Config.bias32
  | .decomp16 d => d.uexp = unbiased d.bexp.toNat Config.bias16
  | .class32 c => classCodeWellFormed c.code.toNat = true
  | .class16 c => classCodeWellFormed c.code.toNat = true
  | .round mainOut expInc => expInc = 1#1 → mainOut = 0x400#11
  | .narrow h => class16 h = .nan → sig16 h = Config.nan16Sig
  | .decode32 text => text.length ≤ 33 ∧ ∀ c ∈ text, c ∈ textAlphabet
  | .decode16 text => text.length ≤ 19 ∧ ∀ c ∈ text, c ∈ textAlphabet

/-- A row of the table of classes (41_classifier.md R45): what it says of the exponent field and the significand. -/
def ClassRow (c : FpClass) (bexp sig allOne : Nat) : Prop :=
  match c with
  | .zero => bexp = 0 ∧ sig = 0
  | .subnormal => bexp = 0 ∧ sig ≠ 0
  | .normal => 0 < bexp ∧ bexp < allOne
  | .infinity => bexp = allOne ∧ sig = 0
  | .nan => bexp = allOne ∧ sig ≠ 0

/-- The invariant: a response that is there is one the block may produce. -/
def Inv (s : State) : Prop := ∀ r, s.response = some r → ResponseOk r

/-- A safe step: it gives a next state (60_exceptions.md R80: every step does). -/
def SafeStep (s : State) : Prop := ∃ t, step s = .next t

end Sys2Proof
end

