-- ==== Sys2Proof/Certificates/Slice0/Obligations.lean ====
section
/-! DEFINITION. The statements for the provers. Where a docstring says "the spec's own decision" or "marked derived", the
statement rests on a rule that the spec marks so, and its basis is 'derived'. -/

open Sys2Proof Sys2Proof.Machine

/-! ### Requests and their encoding -/

/-- Encode and decode are inverse: every instruction comes back whole, and the requests that come back whole are those in
which everything ignored is 0 (30_encoding.md R33 to R35, R37: the spec's own decisions D2, D3, D5; the zeros are the
model's choice, log 6). -/
def Obligations.DecodeAndEncodeAreInverse : Prop :=
  (∀ i : Instr, decode (encode i) = i ∧ (encode i).canonical = true) ∧
  ∀ r : Request, encode (decode r) = r ↔ r.canonical = true

/-- Each operation code selects its operation on the operand bits that it reads (30_encoding.md R34, the spec's own
decision D2). -/
def Obligations.OperationCodesSelectOperations : Prop :=
  ∀ (a : BitVec 32) (n : Nat),
    decode ⟨requestWord 0#3 a, n⟩ = .decomp32 a ∧
    decode ⟨requestWord 1#3 a, n⟩ = .decomp16 (BitVec.ofNat 16 (slice a.toNat 15 0)) ∧
    decode ⟨requestWord 2#3 a, n⟩ = .class32 a ∧
    decode ⟨requestWord 3#3 a, n⟩ = .class16 (BitVec.ofNat 16 (slice a.toNat 15 0)) ∧
    decode ⟨requestWord 4#3 a, n⟩ = .round (BitVec.ofNat 11 (slice a.toNat 10 0))
      (BitVec.ofNat 13 (slice a.toNat 23 11)) (decide (slice a.toNat 24 24 = 1)) ∧
    decode ⟨requestWord 5#3 a, n⟩ = .narrow a ∧
    decode ⟨requestWord 6#3 a, n⟩ = .decode32 a n ∧
    decode ⟨requestWord 7#3 a, n⟩ = .decode16 (BitVec.ofNat 16 (slice a.toNat 15 0)) n

/-- Exactly one row of the opcode table covers a word, and it is the row of the instruction that the word decodes to
(30_encoding.md R34, R38; spec/opcode_table.json). -/
def Obligations.OneOpcodeTableRowCoversEachWord : Prop :=
  ∀ (w : RequestWord) (n : Nat),
    (opcodeTable.filter fun row => row.covers w).map OpcodeRow.mnemonic = [mnemonic (decode ⟨w, n⟩)]

/-- A response does not depend on the operand bits, or the `max_length`, that the operation ignores (30_encoding.md R37, the
spec's own decision D5). -/
def Obligations.IgnoredBitsDoNotChangeTheResponse : Prop :=
  ∀ (s : State) (r q : Request), r.agreesWith q = true → evaluate s r = evaluate s q

/-- The operand word of `ROUND`: `(sticky << 24) | (remainder << 11) | main`, the seven bits above it ignored; the response
is in range (30_encoding.md R35, the spec's own decision D3). -/
def Obligations.RoundOperandWordPacksItsInputs : Prop :=
  ∀ (s : State) (main : BitVec 11) (remainder : BitVec 13) (sticky : Bool) (high n : Nat),
    ∃ (out inc : Nat), out ≤ 0x7FF ∧ inc ≤ 1 ∧
      evaluate s ⟨requestWord 4#3 (BitVec.ofNat 32
        (packRound main.toNat remainder.toNat sticky.toNat + high * 2 ^ 25)), n⟩ =
        some (.round (BitVec.ofNat 11 out) (BitVec.ofNat 1 inc)) ∧
      roundMain main.toNat remainder.toNat sticky = (out, inc)

/-- A step runs the decoded instruction, and nothing else happens in it: no program counter moves (10_state.md R12). -/
def Obligations.StepRunsTheDecodedInstruction : Prop :=
  (∀ s : State, (decode s.request).wellFormed = true ∧ step s = exec (decode s.request) s) ∧
  ∀ (s : State) (i : Instr), step (s.present (encode i)) = exec i (s.present (encode i))

/-- Words written out from the spec's encoding decode to the instructions they stand for (95_test_vectors.md sections 3.1 to
3.6; P1, P2). -/
def Obligations.WrittenOutWordsDecode : Prop :=
  decode ⟨0x03F000000#35, 0⟩ = .decomp32 0x3F000000#32 ∧
  decode ⟨0x100003C00#35, 0⟩ = .decomp16 0x3C00#16 ∧
  decode ⟨0x23F000000#35, 0⟩ = .class32 0x3F000000#32 ∧
  decode ⟨0x300003C00#35, 0⟩ = .class16 0x3C00#16 ∧
  decode ⟨0x401800401#35, 0⟩ = .round 0x401#11 0x1000#13 true ∧
  decode ⟨0x540490FDB#35, 0⟩ = .narrow 0x40490FDB#32 ∧
  decode ⟨0x640490FDB#35, 64⟩ = .decode32 0x40490FDB#32 64 ∧
  decode ⟨0x700004248#35, 64⟩ = .decode16 0x4248#16 64

/-! ### The machine -/

/-- Every instruction answers a next state in every state, with its response and nothing else changed, and there is no
fault to answer with (60_exceptions.md R80). -/
def Obligations.NoOperationRaisesAnException : Prop :=
  (∀ (i : Instr) (s : State), ∃ r : Response, exec i s = .next { s with response := some r }) ∧ (Fault → False)

/-- The frame of all eight instructions: what a host reads after an instruction is the request it presented, unchanged, and
a response of the record that the operation has (30_encoding.md R34). -/
def Obligations.ExecLeavesTheRequestAndGivesItsOwnRecord : Prop :=
  ∀ (i : Instr) (s t : State), exec i s = .next t → t.request = s.request ∧
    match i with
    | .decomp32 _ => ∃ d, t.response = some (.decomp32 d)
    | .decomp16 _ => ∃ d, t.response = some (.decomp16 d)
    | .class32 _ => ∃ c, t.response = some (.class32 c)
    | .class16 _ => ∃ c, t.response = some (.class16 c)
    | .round _ _ _ => ∃ m e, t.response = some (.round m e)
    | .narrow _ => ∃ h, t.response = some (.narrow h)
    | .decode32 _ _ => ∃ x, t.response = some (.decode32 x)
    | .decode16 _ _ => ∃ x, t.response = some (.decode16 x)

/-- A step is `response = f(request)`: one total function of the request gives the response, whatever the state held
(10_state.md R10). -/
def Obligations.StepIsAFunctionOfTheRequest : Prop :=
  ∃ f : Request → Response, ∀ s : State, step s = .next { s with response := some (f s.request) }

/-- The first evaluation is as good as any later one: a request has in every state the response it has right after reset,
where none is there yet (10_state.md R17, 70_reset_and_hazards.md R90, the spec's own decision D15; that no response stands
there is the model's choice, log 2). -/
def Obligations.FirstEvaluationIsAsGoodAsAnyLater : Prop :=
  State.reset.response = none ∧ ∀ (s : State) (r : Request), evaluate s r = evaluate State.reset r

/-- Evaluating the same request again changes nothing (20_memory.md R23). -/
def Obligations.EvaluationIsIdempotent : Prop :=
  ∀ s t : State, step s = .next t → step t = .next t

/-- Requests issued one after another each get the response that they have alone (20_memory.md R25,
70_reset_and_hazards.md R92, R95). -/
def Obligations.RequestsInSequenceAreAnsweredAlone : Prop :=
  ∀ (s : State) (rs : List Request), (serve s rs).map some = rs.map (evaluate State.reset)

/-- Whatever the schedule of requests on any number of instances: each instance ends with the last request scheduled on it
and the response which that request has alone, and an instance with none is untouched (20_memory.md section 6,
60_exceptions.md section 6). That instances are a list, evaluated one at a time, and that an entry for an instance that does
not exist does nothing are the model's choice (DESIGN CHOICE, log 19): evaluations at the same moment are not shown. -/
def Obligations.InterleavingsOnInstancesDoNotInteract : Prop :=
  ∀ (schedule : List (Nat × Request)) (blocks : List State),
    ∃ after, evaluateAll schedule blocks = .next after ∧ after.length = blocks.length ∧
      ∀ k, k < blocks.length → after[k]? =
        match (schedule.filter fun e => e.1 == k).getLast? with
        | none => blocks[k]?
        | some e => some ⟨e.2, evaluate State.reset e.2⟩

/-- Every response that stands at the block satisfies what the spec promises of its record, after every step from a state
in which it did (40_decomposer.md R42, 42_rounding.md R52, 43_converter.md R58, 44_formatter.md R79). -/
def Obligations.ResponseInvariantIsKeptByEveryStep : Prop :=
  ∀ s t : State, Inv s → step s = .next t → Inv t ∧ t.request = s.request ∧ t.response.isSome = true

/-- The invariant holds right after reset, where no response stands (the model's choice, log 2). -/
def Obligations.ResponseInvariantAtReset : Prop := Inv State.reset

/-- A CORE-only block refuses the two formatter operations by name and is the full block on the six others
(30_encoding.md R38, the spec's own decision D20). -/
def Obligations.CoreOnlyBlockRefusesTheFormatterByName : Prop :=
  ∀ (s : State) (a : BitVec 32) (n : Nat),
    stepCoreOnly (s.present ⟨requestWord 6#3 a, n⟩) = .refused (.outsideCore "DECODE32") ∧
    stepCoreOnly (s.present ⟨requestWord 7#3 a, n⟩) = .refused (.outsideCore "DECODE16") ∧
    ∀ op : BitVec 3, op.toNat < 6 →
      stepCoreOnly (s.present ⟨requestWord op a, n⟩) = step (s.present ⟨requestWord op a, n⟩)

/-! ### The decomposer -/

/-- `DECOMP32` gives the three fields and the unbiased exponent (40_decomposer.md R40). -/
def Obligations.Decomp32GivesTheFields : Prop :=
  ∀ (a : BitPattern32) (s : State), exec (.decomp32 a) s = .next { s with response := some (.decomp32
    { sign := BitVec.ofNat 1 (slice a.toNat 31 31)
      bexp := BitVec.ofNat 8 (slice a.toNat 30 23)
      sig := BitVec.ofNat 23 (slice a.toNat 22 0)
      uexp := (slice a.toNat 30 23 : Int) - 127 }) }

/-- `DECOMP16` gives the three fields and the unbiased exponent (40_decomposer.md R41). -/
def Obligations.Decomp16GivesTheFields : Prop :=
  ∀ (h : BitPattern16) (s : State), exec (.decomp16 h) s = .next { s with response := some (.decomp16
    { sign := BitVec.ofNat 1 (slice h.toNat 15 15)
      bexp := BitVec.ofNat 5 (slice h.toNat 14 10)
      sig := BitVec.ofNat 10 (slice h.toNat 9 0)
      uexp := (slice h.toNat 14 10 : Int) - 15 }) }

/-- The unbiased exponent's range, and what it is for the classes that have no exponent of their own: the formula's -127 or
-15 for Zero and Subnormal and for no other, 128 or 16 for Infinity and NaN and for no other (40_decomposer.md section 4). -/
def Obligations.UnbiasedExponentByClass : Prop :=
  (∀ a : BitPattern32, -127 ≤ (decompose32 a).uexp ∧ (decompose32 a).uexp ≤ 128 ∧
    ((decompose32 a).uexp = -127 ↔ class32 a = .zero ∨ class32 a = .subnormal) ∧
    ((decompose32 a).uexp = 128 ↔ class32 a = .infinity ∨ class32 a = .nan)) ∧
  ∀ h : BitPattern16, -15 ≤ (decompose16 h).uexp ∧ (decompose16 h).uexp ≤ 16 ∧
    ((decompose16 h).uexp = -15 ↔ class16 h = .zero ∨ class16 h = .subnormal) ∧
    ((decompose16 h).uexp = 16 ↔ class16 h = .infinity ∨ class16 h = .nan)

/-- Decomposition loses nothing and reassembly adds nothing: the fields give the pattern back, and every triple of fields
is the decomposition of the pattern put together from it (40_decomposer.md R43, marked derived). -/
def Obligations.DecompositionAndReassemblyAreInverse : Prop :=
  (∀ a : BitPattern32,
    assemble32 (decompose32 a).sign.toNat (decompose32 a).bexp.toNat (decompose32 a).sig.toNat = a.toNat) ∧
  (∀ h : BitPattern16,
    assemble16 (decompose16 h).sign.toNat (decompose16 h).bexp.toNat (decompose16 h).sig.toNat = h.toNat) ∧
  (∀ (s : BitVec 1) (e : BitVec 8) (m : BitVec 23),
    decompose32 (BitVec.ofNat 32 (assemble32 s.toNat e.toNat m.toNat)) = ⟨s, e, m, (e.toNat : Int) - 127⟩) ∧
  ∀ (s : BitVec 1) (e : BitVec 5) (m : BitVec 10),
    decompose16 (BitVec.ofNat 16 (assemble16 s.toNat e.toNat m.toNat)) = ⟨s, e, m, (e.toNat : Int) - 15⟩

/-! ### The classifier -/

/-- `CLASS32` and `CLASS16` answer the class whose row of the table the exponent field and the significand satisfy; the sign
takes no part (41_classifier.md R45). -/
def Obligations.ClassOperationsFollowTheTable : Prop :=
  (∀ (a : BitPattern32) (s : State) (c : FpClass),
    exec (.class32 a) s = .next { s with response := some (.class32 c) } ↔
      ClassRow c (slice a.toNat 30 23) (slice a.toNat 22 0) 255) ∧
  (∀ (h : BitPattern16) (s : State) (c : FpClass),
    exec (.class16 h) s = .next { s with response := some (.class16 c) } ↔
      ClassRow c (slice h.toNat 14 10) (slice h.toNat 9 0) 31) ∧
  (∀ a : BitPattern32, class32 (a ^^^ 0x80000000#32) = class32 a) ∧
  ∀ h : BitPattern16, class16 (h ^^^ 0x8000#16) = class16 h

/-- `CLASS32` and `CLASS16` complete in every state, for every pattern, with the class of the pattern as their response
(41_classifier.md R46, R47). -/
def Obligations.ClassOperationsComplete : Prop :=
  (∀ (a : BitPattern32) (s : State), exec (.class32 a) s = .next { s with response := some (.class32
    (classify (slice a.toNat 30 23) (slice a.toNat 22 0) 255)) }) ∧
  ∀ (h : BitPattern16) (s : State), exec (.class16 h) s = .next { s with response := some (.class16
    (classify (slice h.toNat 14 10) (slice h.toNat 9 0) 31)) }

/-- Exactly one of the five classes applies to every pattern, and it is the one that the classifier names
(41_classifier.md R48). -/
def Obligations.ExactlyOneClassApplies : Prop :=
  (∀ a : BitPattern32, (∃! c, ClassRow c (bexp32 a).toNat (sig32 a).toNat 255) ∧
    ClassRow (class32 a) (bexp32 a).toNat (sig32 a).toNat 255) ∧
  ∀ h : BitPattern16, (∃! c, ClassRow c (bexp16 h).toNat (sig16 h).toNat 31) ∧
    ClassRow (class16 h) (bexp16 h).toNat (sig16 h).toNat 31

/-- How many patterns each class has (41_classifier.md sections 2 and 3: the counts are marked derived). -/
def Obligations.ClassCounts : Prop :=
  (Nat.card { a : BitPattern32 // class32 a = .zero } = 2 ∧
   Nat.card { a : BitPattern32 // class32 a = .subnormal } = 16777214 ∧
   Nat.card { a : BitPattern32 // class32 a = .normal } = 4261412864 ∧
   Nat.card { a : BitPattern32 // class32 a = .infinity } = 2 ∧
   Nat.card { a : BitPattern32 // class32 a = .nan } = 16777214) ∧
  (Nat.card { h : BitPattern16 // class16 h = .zero } = 2 ∧
   Nat.card { h : BitPattern16 // class16 h = .subnormal } = 2046 ∧
   Nat.card { h : BitPattern16 // class16 h = .normal } = 61440 ∧
   Nat.card { h : BitPattern16 // class16 h = .infinity } = 2 ∧
   Nat.card { h : BitPattern16 // class16 h = .nan } = 2046)

/-- The class codes, and that 5 to 7 are never produced (30_encoding.md R36, the spec's own decision D4). -/
def Obligations.ClassCodes : Prop :=
  FpClass.zero.code = 0#3 ∧ FpClass.subnormal.code = 1#3 ∧ FpClass.normal.code = 2#3 ∧ FpClass.infinity.code = 3#3 ∧
  FpClass.nan.code = 4#3 ∧ ∀ c : FpClass, c.code.toNat ≤ 4

/-! ### The rounding logic -/

/-- `ROUND` on every input, as its pseudocode has it (42_rounding.md R50). -/
def Obligations.RoundGivesMantissaAndCarry : Prop :=
  ∀ (main : BitVec 11) (remainder : BitVec 13) (sticky : Bool) (s : State) (t : Nat),
    t = main.toNat + (if remainder.toNat > 0x1000 ∨
      (remainder.toNat = 0x1000 ∧ (main.toNat % 2 = 1 ∨ sticky = true)) then 1 else 0) →
    exec (.round main remainder sticky) s = .next { s with response := some (.round
      (BitVec.ofNat 11 (if t > 0x7FF then t / 2 else t)) (BitVec.ofNat 1 (if t > 0x7FF then 1 else 0))) } ∧
    t ≤ 0x800

/-- The decision table of the round-up: incremented in its two cases and in no other (42_rounding.md R51). -/
def Obligations.RoundUpFollowsTheDecisionTable : Prop :=
  ∀ (main remainder : Nat) (sticky : Bool),
    (remainder < 0x1000 → roundUp main remainder sticky = false) ∧
    (remainder = 0x1000 → sticky = false → main % 2 = 0 → roundUp main remainder sticky = false) ∧
    (remainder = 0x1000 → sticky = false → main % 2 = 1 → roundUp main remainder sticky = true) ∧
    (remainder = 0x1000 → sticky = true → roundUp main remainder sticky = true) ∧
    (remainder > 0x1000 → roundUp main remainder sticky = true)

/-- A carry out of eleven bits is renormalised: the exponent is incremented and the mantissa halved, to 0x400, and the
halving loses no bit (42_rounding.md R52). -/
def Obligations.RoundingCarryIsRenormalised : Prop :=
  ∀ (main remainder : Nat) (sticky : Bool) (t : Nat), main ≤ 0x7FF →
    t = main + (if roundUp main remainder sticky then 1 else 0) →
    (t > 0x7FF → t = 0x800 ∧ roundMain main remainder sticky = (0x400, 1) ∧ 0x400 * 2 = t) ∧
    (t ≤ 0x7FF → roundMain main remainder sticky = (t, 0))

/-- The ranges of `ROUND`, and the worked cases of its table (42_rounding.md R54, marked derived). -/
def Obligations.RoundRangesAndWorkedCases : Prop :=
  (∀ (main remainder : Nat) (sticky : Bool) (out inc : Nat), main ≤ 0x7FF →
    roundMain main remainder sticky = (out, inc) →
    out ≤ 0x7FF ∧ out ≥ main / 2 ∧ (inc = 1 ↔ main = 0x7FF ∧ roundUp main remainder sticky = true) ∧
    (inc = 0 → out = main ∨ out = main + 1) ∧ (out * 2 ^ inc = main ∨ out * 2 ^ inc = main + 1)) ∧
  (∀ row ∈ ([(0x400, 0x0000, false, 0x400, 0), (0x400, 0x0FFF, false, 0x400, 0), (0x400, 0x0FFF, true, 0x400, 0),
      (0x400, 0x1000, false, 0x400, 0), (0x401, 0x1000, false, 0x402, 0), (0x400, 0x1000, true, 0x401, 0),
      (0x400, 0x1001, false, 0x401, 0), (0x7FE, 0x1000, false, 0x7FE, 0), (0x7FF, 0x1000, false, 0x400, 1),
      (0x7FF, 0x0FFF, true, 0x7FF, 0), (0x7FF, 0x1FFF, false, 0x400, 1), (0x3FF, 0x1FFF, false, 0x400, 0),
      (0x3FF, 0x1000, false, 0x400, 0), (0x000, 0x1000, false, 0x000, 0), (0x000, 0x1000, true, 0x001, 0),
      (0x000, 0x0FFF, true, 0x000, 0), (0x000, 0x1FFF, true, 0x001, 0)] : List (Nat × Nat × Bool × Nat × Nat)),
    roundMain row.1 row.2.1 row.2.2.1 = (row.2.2.2.1, row.2.2.2.2))

/-- `ROUND` gives the nearest mantissa, ties to even. The exact value, in units of 2^-14 of the mantissa's last place, is
`main * 2^14 + 2 * remainder`, and strictly between that and the next number where `sticky` is set
(00_scope.md section 10, the glossary's "Round-to-nearest, ties-to-even" and "Sticky bit"). -/
def Obligations.RoundIsToNearestTiesToEven : Prop :=
  ∀ (main remainder : Nat) (sticky : Bool) (exact rounded : Int), main ≤ 0x7FF → remainder ≤ 0x1FFF →
    exact = main * 2 ^ 14 + 2 * remainder + (if sticky then 1 else 0) →
    rounded = (roundMain main remainder sticky).1 * 2 ^ (roundMain main remainder sticky).2 →
    (∀ other : Int, |rounded * 2 ^ 14 - exact| ≤ |other * 2 ^ 14 - exact|) ∧
    (∀ other : Int, |rounded * 2 ^ 14 - exact| = |other * 2 ^ 14 - exact| → other ≠ rounded → rounded % 2 = 0)

/-! ### The converter -/

/-- `NARROW` is the whole algorithm in one piece, and the clamped form of it gives the same for every input and every
`NAN16_SIG` (43_converter.md section 7, where the clamped form's equality is marked derived). Both sides rest on the spec's
own decisions: mathematical shifts (D6, log 8), `sticky` false where step 4 is skipped (D7, log 9), the NaN's sign kept (D9,
log 11), `e = E - 127` also for `E = 0` (D10, log 18); `NAN16_SIG` is free (D8, log 4), and that the piece writes the shift
as `113 - E` is the model's (DESIGN CHOICE, log 21). -/
def Obligations.NarrowIsTheWholeAlgorithm : Prop :=
  (∀ (a : BitPattern32) (s : State), exec (.narrow a) s = .next { s with response := some (.narrow
    (BitVec.ofNat 16 (narrowPiece Config.nan16Sig.toNat a.toNat))) }) ∧
  ∀ (a : BitPattern32) (nanSig : BitVec 10),
    (narrowWith nanSig a).toNat = narrowPiece nanSig.toNat a.toNat ∧
    narrowClamped nanSig.toNat a.toNat = narrowPiece nanSig.toNat a.toNat

/-- An implementation in fixed-width logic with the least widths gives the same responses
(70_reset_and_hazards.md section 4, marked derived). The spec gives the widths and no circuit: the arrangement of the
fixed-width converter is the model's choice (DESIGN CHOICE, log 21). -/
def Obligations.FixedWidthConverterGivesTheSame : Prop :=
  ∀ (a : BitPattern32) (nanSig : BitVec 10), narrowFixed nanSig a = narrowWith nanSig a

/-- A NaN, and only a NaN, gives a NaN: the exponent field all ones, the one significand `NAN16_SIG` whatever the input's
significand, the sign of the input (43_converter.md R58: the sign is the spec's own decision D9, the significand its D8). -/
def Obligations.NarrowOfNaN : Prop :=
  ∀ (a : BitPattern32) (nanSig : BitVec 10), nanSig ≠ 0#10 →
    (class32 a = .nan ↔ class16 (narrowWith nanSig a) = .nan) ∧
    (class32 a = .nan → sign16 (narrowWith nanSig a) = sign32 a ∧ bexp16 (narrowWith nanSig a) = 31#5 ∧
      sig16 (narrowWith nanSig a) = nanSig) ∧
    Config.nan16Sig ≠ 0#10

/-- The NaN significand matters for NaN inputs only (92_eei_decisions.md section 2). -/
def Obligations.NaNSignificandMattersForNaNOnly : Prop :=
  ∀ (a : BitPattern32) (n n' : BitVec 10), class32 a ≠ .nan → narrowWith n a = narrowWith n' a

/-- Saturation: the three kinds of input that end there, and no other; the smallest magnitude is 0x477FF000,
and 0x477FE001 still rounds back (43_converter.md R62). -/
def Obligations.NarrowSaturatesToSignedInfinity : Prop :=
  ∀ a : BitPattern32, class32 a ≠ .nan →
    ((narrow a).toNat = assemble16 (sign32 a).toNat 31 0 ↔
      ((bexp32 a).toNat ≥ 143 ∧ class32 a = .normal) ∨
      ((bexp32 a).toNat = 142 ∧ (sig32 a).toNat ≥ 0x7FF000) ∨ class32 a = .infinity) ∧
    (class16 (narrow a) = .infinity ↔ a.toNat % 2 ^ 31 ≥ 0x477FF000) ∧
    (a.toNat % 2 ^ 31 = 0x477FE001 → (narrow a).toNat % 2 ^ 15 = 0x7BFF)

/-- Every 32-bit Zero and Subnormal, and every input with exponent field at most 101, gives the zero of its sign
(43_converter.md R65, marked derived). -/
def Obligations.NarrowOfSmallIsSignedZero : Prop :=
  ∀ a : BitPattern32, (bexp32 a).toNat ≤ 101 → (narrow a).toNat = a.toNat / 2 ^ 31 * 2 ^ 15

/-- The table of input ranges and their results (43_converter.md R69, marked derived), the infinities among them (R68). -/
def Obligations.NarrowFollowsTheRangeTable : Prop :=
  ∀ (a : BitPattern32) (mag res : Nat), mag = a.toNat % 2 ^ 31 → res = (narrow a).toNat % 2 ^ 15 →
    (mag ≤ 0x33000000 → res = 0) ∧
    (0x33000001 ≤ mag → mag ≤ 0x33BFFFFF → res = 1) ∧
    (0x33C00000 ≤ mag → mag ≤ 0x34200000 → res = 2) ∧
    (0x34200001 ≤ mag → mag ≤ 0x387FDFFF → 3 ≤ res ∧ res ≤ 0x3FF) ∧
    (0x387FE000 ≤ mag → mag ≤ 0x38801000 → res = 0x400) ∧
    (0x38801001 ≤ mag → mag ≤ 0x477FEFFF → 0x401 ≤ res ∧ res ≤ 0x7BFF) ∧
    (0x477FF000 ≤ mag → mag ≤ 0x7F7FFFFF → res = 0x7C00) ∧
    (mag = 0x7F800000 → res = 0x7C00) ∧
    (0x7F800001 ≤ mag → res = 0x7C00 + Config.nan16Sig.toNat)

/-- The sign is copied for every input, NaNs included, and takes no part in anything else (43_converter.md section 9, marked
derived; for NaNs the spec's own decision D9). -/
def Obligations.NarrowCopiesTheSign : Prop :=
  ∀ a : BitPattern32, sign16 (narrow a) = sign32 a ∧ narrow (a ^^^ 0x80000000#32) = narrow a ^^^ 0x8000#16

/-- The result's magnitude never decreases as the input's increases (43_converter.md section 9, marked derived). -/
def Obligations.NarrowIsMonotone : Prop :=
  ∀ a b : BitPattern32, class32 a ≠ .nan → class32 b ≠ .nan → a.toNat % 2 ^ 31 ≤ b.toNat % 2 ^ 31 →
    (narrow a).toNat % 2 ^ 15 ≤ (narrow b).toNat % 2 ^ 15

/-- Correct rounding: for every input that is not a NaN the sign is kept; below 65520 in magnitude the result is finite, no
finite 16-bit pattern is nearer, and where another value is as near the result's significand is even; from 65520 on the
result is the signed infinity (43_converter.md section 6, marked derived). The number of a pattern is that of 30_encoding.md
section A.4, which the spec marks as general knowledge: PRESUMED (log 16). -/
def Obligations.NarrowIsCorrectlyRounded : Prop :=
  ∀ a : BitPattern32, class32 a ≠ .nan →
    sign16 (narrow a) = sign32 a ∧
    (a.toNat % 2 ^ 31 < 0x477FF000 →
      finite32 a = true ∧ |value32 a| < 65520 ∧ finite16 (narrow a) = true ∧
      (∀ g : BitPattern16, finite16 g = true →
        |value16 (narrow a) - value32 a| ≤ |value16 g - value32 a| ∧
        (|value16 (narrow a) - value32 a| = |value16 g - value32 a| → value16 g ≠ value16 (narrow a) →
          (sig16 (narrow a)).toNat % 2 = 0))) ∧
    (a.toNat % 2 ^ 31 ≥ 0x477FF000 →
      (finite32 a = true → 65520 ≤ |value32 a|) ∧
      (narrow a).toNat = (sign32 a).toNat * 2 ^ 15 + 0x7C00)

/-- An input whose value a 16-bit pattern has comes back exactly as that pattern, and for a Normal one the input is the
pattern with its exponent rebiased (95_test_vectors.md section 3.5, "Exact inputs come back exactly", marked derived). The
number of a pattern is that of 30_encoding.md section A.4, which the spec marks as general knowledge: PRESUMED (log 16). -/
def Obligations.NarrowIsExactOnRepresentableValues : Prop :=
  (∀ (a : BitPattern32) (h : BitPattern16), finite32 a = true → finite16 h = true → sign32 a = sign16 h →
    value32 a = value16 h → narrow a = h) ∧
  ∀ (a : BitPattern32) (h : BitPattern16), class16 h = .normal →
    a.toNat = assemble32 (sign16 h).toNat ((bexp16 h).toNat + 112) ((sig16 h).toNat * 2 ^ 13) →
    narrow a = h ∧ value32 a = value16 h

/-- Exact ties: the retained mantissa stays if it is even and goes up if it is odd (95_test_vectors.md S6, the document's own
property). -/
def Obligations.NarrowTiesGoToEven : Prop :=
  ∀ a : BitPattern32, 0x38800000 ≤ a.toNat % 2 ^ 31 → a.toNat % 2 ^ 31 < 0x7F800000 → a.toNat % 2 ^ 13 = 0x1000 →
    (a.toNat / 2 ^ 13 % 2 = 0 → narrow a = narrow (a - 0x1000#32)) ∧
    (a.toNat / 2 ^ 13 % 2 = 1 → narrow a = narrow (a + 0x1000#32))

/-- A value just below the smallest 16-bit normal that rounds up to it is emitted as a normal with exponent field 1
(95_test_vectors.md S8, the document's own property). -/
def Obligations.NarrowPromotesToTheSmallestNormal : Prop :=
  ∀ a : BitPattern32, 0x387FE000 ≤ a.toNat % 2 ^ 31 → a.toNat % 2 ^ 31 ≤ 0x387FFFFF →
    (narrow a).toNat = assemble16 (sign32 a).toNat 1 0 ∧ class16 (narrow a) = .normal

/-- The converter's intermediate values stay in the ranges and widths that the spec states (10_state.md R16,
70_reset_and_hazards.md R93, marked derived). -/
def Obligations.NarrowIntermediateValuesStayInRange : Prop :=
  ∀ (a : BitPattern32) (c : Candidate), c = align (decompose32 a).sig.toNat (decompose32 a).uexp →
    c.main ≤ 0x7FF ∧ c.remainder ≤ 0x1FFF ∧ -14 ≤ c.e ∧ c.e ≤ 128 ∧
    ((decompose32 a).uexp < -14 → c.main ≤ 0x3FF ∧ c.e = -14 ∧
      1 ≤ -((decompose32 a).uexp + 14) ∧ -((decompose32 a).uexp + 14) ≤ 113) ∧
    (-14 ≤ (decompose32 a).uexp → 0x400 ≤ c.main ∧ c.sticky = false ∧ c.e = (decompose32 a).uexp) ∧
    (roundMain c.main c.remainder c.sticky).1 ≤ 0x7FF ∧
    ((roundMain c.main c.remainder c.sticky).1 < 0x400 → c.e = -14 ∧ (roundMain c.main c.remainder c.sticky).2 = 0)

/-- `NARROW` is what a host puts together from the responses of `CLASS32`, `DECOMP32` and `ROUND`
(95_test_vectors.md P2). -/
def Obligations.NarrowIsRebuiltFromTheOtherOperations : Prop :=
  ∀ (s : State) (a : BitPattern32),
    (rebuildNarrow s Config.nan16Sig.toNat a).map (fun h => Response.narrow (BitVec.ofNat 16 h)) =
      evaluate s ⟨requestWord 5#3 a, 0⟩

/-! ### The formatter -/

/-- `DECODE32` and `DECODE16` complete in every state, on every pattern and bound, with a prefix of the natural rendering as
their text: the first `max_length - TERM` characters, none if `max_length` is not above `TERM` (44_formatter.md R76, R77;
what `TERM` takes is the spec's own decision D13). -/
def Obligations.DecodeOperationsGiveBoundedText : Prop :=
  (∀ (a : BitPattern32) (n : Nat) (s : State), exec (.decode32 a n) s = .next { s with response := some (.decode32
    ((natural32 a).take (if n > Config.term then n - Config.term else 0))) }) ∧
  (∀ (h : BitPattern16) (n : Nat) (s : State), exec (.decode16 h n) s = .next { s with response := some (.decode16
    ((natural16 h).take (if n > Config.term then n - Config.term else 0))) }) ∧
  Config.term ≤ 1

/-- The natural rendering by class, character by character (44_formatter.md R71, R72). -/
def Obligations.NaturalRenderingFollowsTheClass : Prop :=
  (∀ (a : BitPattern32) (sg : Char), sg = (if slice a.toNat 31 31 = 0 then '+' else '-') →
    (class32 a = .infinity → natural32 a = [sg, 'I', 'N', 'F']) ∧
    (class32 a = .nan → natural32 a = ['N', 'a', 'N']) ∧
    (class32 a = .zero → natural32 a = [sg, '0']) ∧
    (class32 a = .normal → natural32 a = [sg, '1', '.'] ++ binText 23 (slice a.toNat 22 0) ++ [' ', '2', '^'] ++
      dec ((slice a.toNat 30 23 : Int) - 127)) ∧
    (class32 a = .subnormal → natural32 a = [sg, '0', '.'] ++ binText 23 (slice a.toNat 22 0) ++ [' ', '2', '^'] ++
      ['-', '1', '2', '6'])) ∧
  (∀ (h : BitPattern16) (sg : Char), sg = (if slice h.toNat 15 15 = 0 then '+' else '-') →
    (class16 h = .infinity → natural16 h = [sg, 'I', 'N', 'F']) ∧
    (class16 h = .nan → natural16 h = ['N', 'a', 'N']) ∧
    (class16 h = .zero → natural16 h = [sg, '0']) ∧
    (class16 h = .normal → natural16 h = [sg, '1', '.'] ++ binText 10 (slice h.toNat 9 0) ++ [' ', '2', '^'] ++
      dec ((slice h.toNat 14 10 : Int) - 15)) ∧
    (class16 h = .subnormal → natural16 h = [sg, '0', '.'] ++ binText 10 (slice h.toNat 9 0) ++ [' ', '2', '^'] ++
      ['-', '1', '4']))

/-- The mantissa characters are the significand's bits, most significant first, all of them (44_formatter.md R73). -/
def Obligations.MantissaCharactersAreTheBits : Prop :=
  (∀ (a : BitPattern32) (k : Nat), class32 a = .normal ∨ class32 a = .subnormal → k < 23 →
    (natural32 a)[3 + k]? = some (if a.getLsbD (22 - k) then '1' else '0') ∧ (natural32 a)[26]? = some ' ') ∧
  ∀ (h : BitPattern16) (k : Nat), class16 h = .normal ∨ class16 h = .subnormal → k < 10 →
    (natural16 h)[3 + k]? = some (if h.getLsbD (9 - k) then '1' else '0') ∧ (natural16 h)[13]? = some ' '

/-- The exponent numeral is decimal: a minus sign for a negative number and none otherwise, then digits that read back as
the magnitude, without a leading zero but for "0" itself (44_formatter.md R74, the spec's own decision D11). -/
def Obligations.ExponentNumeralReadsBack : Prop :=
  ∀ z : Int, ∃ digits : List Nat,
    dec z = (if z < 0 then ['-'] else []) ++ digits.map Nat.digitChar ∧
    (∀ d ∈ digits, d < 10) ∧ digits ≠ [] ∧ (digits.head? = some 0 → digits = [0]) ∧
    digits.foldl (fun acc d => acc * 10 + d) 0 = z.natAbs

/-- The text is a prefix of the natural rendering that the bound allows: never longer than `max_length` less the terminator,
empty for `max_length` 0, whole from 33 + `TERM` on, for both values of `TERM` (44_formatter.md R75, the spec's own
decision D13; R70). -/
def Obligations.TextIsABoundedPrefix : Prop :=
  ∀ (term n : Nat), term ≤ 1 → ∀ natural : Text,
    ((∃ a : BitPattern32, natural = natural32 a) ∨ ∃ h : BitPattern16, natural = natural16 h) →
    (bounded term n natural).length ≤ n - term ∧ (bounded term n natural) <+: natural ∧
    (n = 0 → bounded term n natural = []) ∧ (33 + term ≤ n → bounded term n natural = natural) ∧
    (n - term ≤ natural.length → (bounded term n natural).length = n - term)

/-- The lengths of the natural rendering (44_formatter.md R79, marked derived). -/
def Obligations.NaturalRenderingLengths : Prop :=
  (∀ (a : BitPattern32) (x : Int), x = (decompose32 a).uexp →
    (class32 a = .zero → (natural32 a).length = 2) ∧ (class32 a = .nan → (natural32 a).length = 3) ∧
    (class32 a = .infinity → (natural32 a).length = 4) ∧ (class32 a = .subnormal → (natural32 a).length = 33) ∧
    (class32 a = .normal →
      (0 ≤ x ∧ x ≤ 9 → (natural32 a).length = 30) ∧
      (10 ≤ x ∧ x ≤ 99 ∨ -9 ≤ x ∧ x ≤ -1 → (natural32 a).length = 31) ∧
      (100 ≤ x ∧ x ≤ 127 ∨ -99 ≤ x ∧ x ≤ -10 → (natural32 a).length = 32) ∧
      (-126 ≤ x ∧ x ≤ -100 → (natural32 a).length = 33) ∧ -126 ≤ x ∧ x ≤ 127)) ∧
  (∀ (h : BitPattern16) (x : Int), x = (decompose16 h).uexp →
    (class16 h = .zero → (natural16 h).length = 2) ∧ (class16 h = .nan → (natural16 h).length = 3) ∧
    (class16 h = .infinity → (natural16 h).length = 4) ∧ (class16 h = .subnormal → (natural16 h).length = 19) ∧
    (class16 h = .normal →
      (0 ≤ x ∧ x ≤ 9 → (natural16 h).length = 17) ∧
      (10 ≤ x ∧ x ≤ 15 ∨ -9 ≤ x ∧ x ≤ -1 → (natural16 h).length = 18) ∧
      (-14 ≤ x ∧ x ≤ -10 → (natural16 h).length = 19) ∧ -14 ≤ x ∧ x ≤ 15))

/-- The rendering distinguishes every two patterns but NaNs (follows from 44_formatter.md R71 to R74). -/
def Obligations.RenderingDistinguishesAllButNaNs : Prop :=
  (∀ a b : BitPattern32, natural32 a = natural32 b → a = b ∨ (class32 a = .nan ∧ class32 b = .nan)) ∧
  ∀ g h : BitPattern16, natural16 g = natural16 h → g = h ∨ (class16 g = .nan ∧ class16 h = .nan)

/-- Every character of a text is one of nineteen, each one byte below 0x80 (20_memory.md R28, the spec's own decision D12;
the codes are those of 93_implementation_defined.md G7). -/
def Obligations.TextCharactersAreAscii : Prop :=
  (∀ (a : BitPattern32) (n : Nat), ∀ c ∈ bounded Config.term n (natural32 a), c ∈ textAlphabet) ∧
  (∀ (h : BitPattern16) (n : Nat), ∀ c ∈ bounded Config.term n (natural16 h), c ∈ textAlphabet) ∧
  textAlphabet.map asciiByte = [0x20#8, 0x2B#8, 0x2D#8, 0x2E#8, 0x30#8, 0x31#8, 0x32#8, 0x33#8, 0x34#8, 0x35#8, 0x36#8,
    0x37#8, 0x38#8, 0x39#8, 0x46#8, 0x49#8, 0x4E#8, 0x5E#8, 0x61#8]

/-- What a host's buffer receives never overruns it: at most `max_length` bytes, character `k` in byte `k`, the terminator
directly after the last character, nothing for `max_length` 0 (20_memory.md R28, 44_formatter.md R75, the spec's own
decisions D12 and D13). -/
def Obligations.HostBufferIsNeverOverrun : Prop :=
  ∀ (term n : Nat) (terminator : Byte) (natural text : Text), term ≤ 1 → text = bounded term n natural →
    (bufferBytes term terminator n text).length ≤ n ∧
    (∀ (k : Nat) (c : Char), text[k]? = some c → (bufferBytes term terminator n text)[k]? = some (asciiByte c)) ∧
    (term = 1 → 0 < n → (bufferBytes term terminator n text)[text.length]? = some terminator) ∧
    (n = 0 → bufferBytes term terminator n text = [])

/-- The document's own examples of the formatter, for every bound that it states them for (95_test_vectors.md S2 to S5). -/
def Obligations.DocumentExamplesOfDecode : Prop :=
  ∀ (s : State) (n : Nat),
    (64 ≤ n → exec (.decode32 0x3F000000#32 n) s = .next { s with response := some (.decode32
      (['+', '1', '.'] ++ List.replicate 23 '0' ++ [' ', '2', '^', '-', '1'])) }) ∧
    (8 ≤ n → exec (.decode32 0x00000000#32 n) s = .next { s with response := some (.decode32 ['+', '0']) } ∧
      exec (.decode32 0x80000000#32 n) s = .next { s with response := some (.decode32 ['-', '0']) } ∧
      exec (.decode32 0x7F800000#32 n) s = .next { s with response := some (.decode32 ['+', 'I', 'N', 'F']) } ∧
      exec (.decode32 0xFF800000#32 n) s = .next { s with response := some (.decode32 ['-', 'I', 'N', 'F']) }) ∧
    ∀ a : BitPattern32, exec (.decode32 a 0) s = .next { s with response := some (.decode32 []) }
end

