-- ==== Sys2Proof/Laws/Config.lean ====
section
/-! SUPPORT. All that is known of the two open parameters (00_scope.md R5). -/

namespace Sys2Proof.Config

theorem nan16Sig_toNat : nan16Sig.toNat = nan16SigIndex.val + 1 := by
  have h := nan16SigIndex.isLt
  simp only [nan16Sig, BitVec.toNat_ofNat]
  omega

/-- `1 <= NAN16_SIG <= 0x3FF`. -/
theorem nan16Sig_range : 1 ≤ nan16Sig.toNat ∧ nan16Sig.toNat ≤ 0x3FF := by
  have h := nan16SigIndex.isLt
  have := nan16Sig_toNat
  omega

theorem nan16Sig_wellFormed : nan16SigWellFormed nan16Sig.toNat = true := by
  simp [nan16SigWellFormed, nan16Sig_range.1, nan16Sig_range.2]

/-- `TERM` is 0 or 1. -/
theorem term_le_one : term ≤ 1 := by
  unfold term; split <;> omega

end Sys2Proof.Config
end

