-- ==== Sys2Proof/Laws/Operands.lean ====
section
/-! SUPPORT. The fields as numbers: division and remainder by powers of two, and reassembly as a sum
(30_encoding.md R30 to R32). -/

namespace Sys2Proof.Machine

theorem sign32_toNat (a : BitPattern32) : (sign32 a).toNat = a.toNat / 2 ^ 31 := by
  have := a.isLt
  simp only [sign32, BitVec.extractLsb'_toNat, Nat.shiftRight_eq_div_pow]
  omega

theorem bexp32_toNat (a : BitPattern32) : (bexp32 a).toNat = a.toNat / 2 ^ 23 % 2 ^ 8 := by
  simp only [bexp32, BitVec.extractLsb'_toNat, Nat.shiftRight_eq_div_pow]

theorem sig32_toNat (a : BitPattern32) : (sig32 a).toNat = a.toNat % 2 ^ 23 := by
  simp [sig32, BitVec.extractLsb'_toNat]

theorem sign16_toNat (h : BitPattern16) : (sign16 h).toNat = h.toNat / 2 ^ 15 := by
  have := h.isLt
  simp only [sign16, BitVec.extractLsb'_toNat, Nat.shiftRight_eq_div_pow]
  omega

theorem bexp16_toNat (h : BitPattern16) : (bexp16 h).toNat = h.toNat / 2 ^ 10 % 2 ^ 5 := by
  simp only [bexp16, BitVec.extractLsb'_toNat, Nat.shiftRight_eq_div_pow]

theorem sig16_toNat (h : BitPattern16) : (sig16 h).toNat = h.toNat % 2 ^ 10 := by
  simp [sig16, BitVec.extractLsb'_toNat]

/-- The fields of a 16-bit pattern do not overlap, so putting them together is a sum. -/
theorem assemble16_eq_add {s bexp sig : Nat} (hb : bexp < 2 ^ 5) (hs : sig < 2 ^ 10) :
    assemble16 s bexp sig = s * 2 ^ 15 + bexp * 2 ^ 10 + sig := by
  have h1 : (s <<< 15) ||| (bexp <<< 10) = s <<< 15 + bexp <<< 10 := by
    rw [Nat.shiftLeft_add_eq_or_of_lt (by rw [Nat.shiftLeft_eq]; omega)]
  have h2 : s <<< 15 + bexp <<< 10 = (s * 32 + bexp) <<< 10 := by
    simp only [Nat.shiftLeft_eq]; omega
  rw [assemble16, h1, h2, ← Nat.shiftLeft_add_eq_or_of_lt hs, Nat.shiftLeft_eq]; omega

/-- The fields of a 32-bit pattern do not overlap, so putting them together is a sum. -/
theorem assemble32_eq_add {s bexp sig : Nat} (hb : bexp < 2 ^ 8) (hs : sig < 2 ^ 23) :
    assemble32 s bexp sig = s * 2 ^ 31 + bexp * 2 ^ 23 + sig := by
  have h1 : (s <<< 31) ||| (bexp <<< 23) = s <<< 31 + bexp <<< 23 := by
    rw [Nat.shiftLeft_add_eq_or_of_lt (by rw [Nat.shiftLeft_eq]; omega)]
  have h2 : s <<< 31 + bexp <<< 23 = (s * 256 + bexp) <<< 23 := by
    simp only [Nat.shiftLeft_eq]; omega
  rw [assemble32, h1, h2, ← Nat.shiftLeft_add_eq_or_of_lt hs, Nat.shiftLeft_eq]; omega

/-- A shorter remainder of a shorter field: the mask of ones is a remainder. -/
theorem and_low (x n : Nat) : x &&& (2 ^ n - 1) = x % 2 ^ n := Nat.and_two_pow_sub_one_eq_mod x n

end Sys2Proof.Machine
end

