-- ==== Sys2Proof/Laws/Converter.lean ====
section
/-! SUPPORT. The converter's intermediate values in plain arithmetic: what each step does, said once. -/

namespace Sys2Proof.Machine

theorem lostBits_eq (m shift : Nat) : lostBits m shift = decide (m % 2 ^ shift ≠ 0) := by
  simp only [lostBits, Nat.shiftLeft_eq, Nat.one_mul, Nat.and_two_pow_sub_one_eq_mod]
  by_cases h : m % 2 ^ shift = 0 <;> simp [h]

theorem roundUp_iff (main remainder : Nat) (sticky : Bool) :
    roundUp main remainder sticky = true ↔
      remainder > 0x1000 ∨ (remainder = 0x1000 ∧ (main % 2 = 1 ∨ sticky = true)) := by
  simp [roundUp, Config.half, Nat.testBit_zero]

/-- Everything that the rounding logic does (42_rounding.md R50). -/
theorem roundMain_cases (main remainder : Nat) (sticky : Bool) :
    ∃ up : Nat, up = (if roundUp main remainder sticky then 1 else 0) ∧
      ((main + up ≤ 0x7FF ∧ roundMain main remainder sticky = (main + up, 0)) ∨
       (main + up > 0x7FF ∧ roundMain main remainder sticky = ((main + up) / 2, 1))) := by
  refine ⟨_, rfl, ?_⟩
  simp only [roundMain]
  by_cases h : main + (if roundUp main remainder sticky then 1 else 0) > 0x7FF
  · exact .inr ⟨h, by rw [if_pos h]; simp [Nat.shiftRight_eq_div_pow]⟩
  · exact .inl ⟨by omega, by rw [if_neg h]⟩

theorem candidate_main {m : Nat} (hm : m < 2 ^ 23) (e : Int) : (candidate m e).main = 0x400 + m / 2 ^ 13 := by
  have : m >>> 13 < 2 ^ 10 := by rw [Nat.shiftRight_eq_div_pow]; omega
  show (m >>> 13) ||| (1 <<< 10) = _
  rw [Nat.or_comm, ← Nat.shiftLeft_add_eq_or_of_lt this, Nat.shiftRight_eq_div_pow, Nat.shiftLeft_eq]

theorem candidate_remainder (m : Nat) (e : Int) : (candidate m e).remainder = m % 2 ^ 13 :=
  and_low m 13

theorem candidate_e (m : Nat) (e : Int) : (candidate m e).e = e := rfl
theorem candidate_sticky (m : Nat) (e : Int) : (candidate m e).sticky = false := rfl

/-- The 24-bit significand with its implicit one. -/
theorem sig24_eq {m : Nat} (hm : m < 2 ^ 23) : m ||| (1 <<< 23) = 2 ^ 23 + m := by
  rw [Nat.or_comm, ← Nat.shiftLeft_add_eq_or_of_lt hm, Nat.shiftLeft_eq, Nat.one_mul]

theorem alignSubnormal_main {m : Nat} (hm : m < 2 ^ 23) (e : Int) :
    (alignSubnormal m e).main = (2 ^ 23 + m) / 2 ^ (-(e + 14)).toNat / 2 ^ 13 := by
  show ((m ||| (1 <<< 23)) >>> _) >>> 13 = _
  rw [sig24_eq hm, Nat.shiftRight_eq_div_pow, Nat.shiftRight_eq_div_pow]

theorem alignSubnormal_remainder {m : Nat} (hm : m < 2 ^ 23) (e : Int) :
    (alignSubnormal m e).remainder = (2 ^ 23 + m) / 2 ^ (-(e + 14)).toNat % 2 ^ 13 := by
  show ((m ||| (1 <<< 23)) >>> _) &&& (2 ^ 13 - 1) = _
  rw [sig24_eq hm, Nat.shiftRight_eq_div_pow, and_low]

theorem alignSubnormal_e (m : Nat) (e : Int) : (alignSubnormal m e).e = -14 := rfl

theorem alignSubnormal_sticky (m : Nat) (e : Int) :
    (alignSubnormal m e).sticky = decide (m % 2 ^ (-(e + 14)).toNat ≠ 0) := lostBits_eq m _

/-- `NARROW` in its three exits' terms: a NaN, or the rounded and re-encoded candidate (43_converter.md R64). -/
theorem narrowNat_of_nan {n : Nat} {a : BitPattern32} (h : class32 a = .nan) :
    narrowNat n a = assemble16 (sign32 a).toNat 31 n := by
  simp only [narrowNat]
  rw [if_pos h]
  rfl

theorem narrowNat_of_not_nan {n : Nat} {a : BitPattern32} (h : class32 a ≠ .nan) :
    narrowNat n a = finish (sign32 a).toNat (align (sig32 a).toNat (unbiased (bexp32 a).toNat 127)) := by
  simp only [narrowNat]
  rw [if_neg h]
  rfl

end Sys2Proof.Machine
end

