-- ==== Sys2Proof/Laws/Decode.lean ====
section
/-! SUPPORT. The two parts of a request word, and the operand fields, read back what was put there (30_encoding.md R32,
R33, R35). -/

namespace Sys2Proof

@[simp] theorem requestWord_op (op : BitVec 3) (a : BitVec 32) : (requestWord op a).op = op := by
  simp only [RequestWord.op, requestWord]
  ext i hi
  simp only [BitVec.getElem_extractLsb', BitVec.getLsbD_append]
  simp [BitVec.getLsbD_eq_getElem hi]

@[simp] theorem requestWord_operand (op : BitVec 3) (a : BitVec 32) : (requestWord op a).operand = a := by
  simp only [RequestWord.operand, requestWord]
  ext i hi
  simp only [BitVec.getElem_extractLsb', BitVec.getLsbD_append]
  simp [hi]

/-- A word is its operation code and its operand word. -/
@[simp] theorem requestWord_op_operand (w : RequestWord) : requestWord w.op w.operand = w := by
  simp only [RequestWord.op, RequestWord.operand, requestWord]
  ext i hi
  simp only [BitVec.getElem_append, BitVec.getElem_extractLsb']
  split
  · simp [BitVec.getLsbD_eq_getElem hi]
  · rw [show 32 + (i - 32) = i by omega, BitVec.getLsbD_eq_getElem hi]

theorem decode_requestWord (op : BitVec 3) (a : BitVec 32) (n : Nat) :
    decode ⟨requestWord op a, n⟩ = decodeOp op a n := by
  simp [decode]

theorem operandPattern16_append (x : BitVec 16) (h : BitPattern16) : operandPattern16 (x ++ h) = h := by
  simp only [operandPattern16]
  ext i hi
  simp only [BitVec.getElem_extractLsb', BitVec.getLsbD_append]
  simp [hi]

theorem operandMain_append (x : BitVec 7) (st : BitVec 1) (rem : BitVec 13) (main : BitVec 11) :
    operandMain (x ++ (st ++ (rem ++ main))) = main := by
  simp only [operandMain]
  ext i hi
  simp only [BitVec.getElem_extractLsb', BitVec.getLsbD_append]
  simp [hi, show i < 24 by omega, show i < 25 by omega]

theorem operandRemainder_append (x : BitVec 7) (st : BitVec 1) (rem : BitVec 13) (main : BitVec 11) :
    operandRemainder (x ++ (st ++ (rem ++ main))) = rem := by
  simp only [operandRemainder]
  ext i hi
  simp only [BitVec.getElem_extractLsb', BitVec.getLsbD_append]
  simp [hi, show 11 + i < 24 by omega, show 11 + i < 25 by omega]

theorem operandSticky_append (x : BitVec 7) (sticky : Bool) (rem : BitVec 13) (main : BitVec 11) :
    operandSticky (x ++ (BitVec.ofBool sticky ++ (rem ++ main))) = sticky := by
  have h : (x ++ (BitVec.ofBool sticky ++ (rem ++ main))).extractLsb' 24 1 = BitVec.ofBool sticky := by
    ext i hi
    simp only [BitVec.getElem_extractLsb', BitVec.getLsbD_append]
    simp [show i = 0 by omega]
  simp only [operandSticky, h]
  cases sticky <;> rfl

@[simp] theorem operandMain_operandWord (main : BitVec 11) (rem : BitVec 13) (sticky : Bool) :
    operandMain (operandWord (.round main rem sticky)) = main := operandMain_append ..

@[simp] theorem operandRemainder_operandWord (main : BitVec 11) (rem : BitVec 13) (sticky : Bool) :
    operandRemainder (operandWord (.round main rem sticky)) = rem := operandRemainder_append ..

@[simp] theorem operandSticky_operandWord (main : BitVec 11) (rem : BitVec 13) (sticky : Bool) :
    operandSticky (operandWord (.round main rem sticky)) = sticky := operandSticky_append ..

end Sys2Proof
end

