-- ==== Sys2Proof/Laws/Formatter.lean ====
section
/-! SUPPORT. Lengths and characters of the pieces of a text. -/

namespace Sys2Proof.Machine

@[simp] theorem binText_length (n v : Nat) : (binText n v).length = n := by simp [binText]

theorem binText_get (n v k : Nat) (hk : k < n) :
    (binText n v)[k]? = some (if v.testBit (n - 1 - k) then '1' else '0') := by
  simp [binText, hk]

theorem capacity_le (term maxLength : Nat) : capacity term maxLength = maxLength - term := by
  unfold capacity; split <;> omega

theorem bounded_length_le (term maxLength : Nat) (t : Text) : (bounded term maxLength t).length ≤ maxLength - term := by
  rw [bounded, List.length_take, capacity_le]; omega

theorem bounded_of_fits {term maxLength : Nat} {t : Text} (h : t.length + term ≤ maxLength) :
    bounded term maxLength t = t := by
  rw [bounded, capacity_le, List.take_of_length_le (by omega)]

theorem digitsText_length (sign : BitVec 1) (lead : Char) (w sig : Nat) (x : Int) :
    (digitsText sign lead w sig x).length = w + 6 + (dec x).length := by
  simp [digitsText]; omega

end Sys2Proof.Machine
end

