-- ==== Sys2Proof/Laws/PerInstr.lean ====
section
/-! SUPPORT. One statement per instruction, as syntax: its request word carries its operation code and its operand word
(30_encoding.md R33, R34). -/

namespace Sys2Proof.Laws.EncodedFields

/-- The request that stands for the instruction has its operation code in bits 34:32 and its operand word in bits 31:0. -/
def Statement (i : Instr) : Prop :=
  (encode i).word.op = opcode i ∧ (encode i).word.operand = operandWord i

theorem decomp32 (a : BitPattern32) : Statement (.decomp32 a) := by simp [Statement, encode]
theorem decomp16 (h : BitPattern16) : Statement (.decomp16 h) := by simp [Statement, encode]
theorem class32 (a : BitPattern32) : Statement (.class32 a) := by simp [Statement, encode]
theorem class16 (h : BitPattern16) : Statement (.class16 h) := by simp [Statement, encode]
theorem round (main : BitVec 11) (remainder : BitVec 13) (sticky : Bool) : Statement (.round main remainder sticky) := by
  simp [Statement, encode]
theorem narrow (a : BitPattern32) : Statement (.narrow a) := by simp [Statement, encode]
theorem decode32 (a : BitPattern32) (maxLength : Nat) : Statement (.decode32 a maxLength) := by simp [Statement, encode]
theorem decode16 (h : BitPattern16) (maxLength : Nat) : Statement (.decode16 h maxLength) := by simp [Statement, encode]

end Sys2Proof.Laws.EncodedFields
end

