-- ==== Sys2Proof/Laws/State.lean ====
section
/-! SUPPORT. What each update of the state and each shared operation does, said once. -/

namespace Sys2Proof.Machine

@[simp] theorem State.present_request (r : Request) (s : State) : (s.present r).request = r := rfl
@[simp] theorem State.present_response (r : Request) (s : State) : (s.present r).response = s.response := rfl
@[simp] theorem State.present_present (r q : Request) (s : State) : (s.present q).present r = s.present r := rfl
@[simp] theorem State.present_self (s : State) : s.present s.request = s := rfl
@[simp] theorem State.withFetchWord_word (s : State) (nbits w : Nat) :
    (s.withFetchWord nbits w).request.word = BitVec.ofNat 35 (w % 2 ^ nbits) := rfl
@[simp] theorem State.withFetchWord_maxLength (s : State) (nbits w : Nat) :
    (s.withFetchWord nbits w).request.maxLength = 0 := rfl
@[simp] theorem State.withFetchWord_response (s : State) (nbits w : Nat) :
    (s.withFetchWord nbits w).response = s.response := rfl
@[simp] theorem State.reset_response : State.reset.response = none := rfl
@[simp] theorem State.reset_request : State.reset.request = ⟨0#35, 0⟩ := rfl

/-- Everything that `respond` does. -/
@[simp] theorem respond_next_iff {r : Response} {s t : State} :
    respond r s = .next t ↔ t = { s with response := some r } := by
  constructor
  · intro h; injection h with h; exact h.symm
  · intro h; subst h; rfl

theorem respond_request {r : Response} {s t : State} (h : respond r s = .next t) : t.request = s.request := by
  rw [respond_next_iff.mp h]

theorem respond_response {r : Response} {s t : State} (h : respond r s = .next t) : t.response = some r := by
  rw [respond_next_iff.mp h]

@[simp] theorem responseOf_respond (r : Response) (s : State) : responseOf (respond r s) = some r := rfl

end Sys2Proof.Machine
end

