-- ==== Sys2Proof/Laws/Step.lean ====
section
/-! SUPPORT. The meanings, as responses. Each is one line over `respond`; a proof about a meaning starts here. -/

namespace Sys2Proof.Machine

theorem exec_decomp32 (a : BitPattern32) (s : State) : exec (.decomp32 a) s = respond (.decomp32 (decompose32 a)) s := rfl
theorem exec_decomp16 (h : BitPattern16) (s : State) : exec (.decomp16 h) s = respond (.decomp16 (decompose16 h)) s := rfl
theorem exec_class32 (a : BitPattern32) (s : State) : exec (.class32 a) s = respond (.class32 (class32 a)) s := rfl
theorem exec_class16 (h : BitPattern16) (s : State) : exec (.class16 h) s = respond (.class16 (class16 h)) s := rfl
theorem exec_round (main : BitVec 11) (remainder : BitVec 13) (sticky : Bool) (s : State) :
    exec (.round main remainder sticky) s =
      respond (.round (BitVec.ofNat 11 (roundMain main.toNat remainder.toNat sticky).1)
        (BitVec.ofNat 1 (roundMain main.toNat remainder.toNat sticky).2)) s := rfl
theorem exec_narrow (a : BitPattern32) (s : State) : exec (.narrow a) s = respond (.narrow (narrow a)) s := rfl
theorem exec_decode32 (a : BitPattern32) (n : Nat) (s : State) :
    exec (.decode32 a n) s = respond (.decode32 (bounded Config.term n (natural32 a))) s := rfl
theorem exec_decode16 (h : BitPattern16) (n : Nat) (s : State) :
    exec (.decode16 h n) s = respond (.decode16 (bounded Config.term n (natural16 h))) s := rfl

end Sys2Proof.Machine
end

