-- ==== Sys2Proof/Laws/Value.lean ====
section
/-! SUPPORT. The number of a pattern is an exact integer in units of 2^-149, with a sign: the handier form for proofs about
rounding. -/

namespace Sys2Proof.Machine

theorem value32_eq_scaled (a : BitPattern32) : value32 a = signFactor (sign32 a) * ((scaled32 a : ℚ) / 2 ^ 149) := by
  unfold value32 scaled32
  split
  · rw [zpow_neg]; norm_num; ring
  · rename_i h
    obtain ⟨k, hk⟩ : ∃ k, (bexp32 a).toNat = k + 1 := ⟨_, (Nat.succ_pred h).symm⟩
    rw [hk, show ((k + 1 : ℕ) : ℤ) - 127 = (k : ℤ) - 126 by push_cast; ring, zpow_sub₀ two_ne_zero, zpow_natCast]
    push_cast
    norm_num
    ring

theorem value16_eq_scaled (h : BitPattern16) : value16 h = signFactor (sign16 h) * ((scaled16 h : ℚ) / 2 ^ 149) := by
  unfold value16 scaled16
  split
  · rw [zpow_neg]; push_cast; norm_num; ring
  · rename_i hb
    rw [zpow_sub₀ two_ne_zero, zpow_natCast, pow_add]
    push_cast
    norm_num
    ring

end Sys2Proof.Machine
end

