-- ==== Sys2Proof/Tests/Slice0.lean ====
section
/-! SUPPORT. Tests. Expected results are the spec's: its encodings (30_encoding.md), its worked examples and vectors
(95_test_vectors.md), or its rules worked by hand. The theorems named test_hyp_… show states and operands that meet the
hypotheses of the statement they name, clause by clause at the ends of its ranges. -/

namespace Sys2Proof.Tests

open Sys2Proof Sys2Proof.Machine

/-! ### Checks refuse what is ill formed -/

theorem test_wf_word_refuses_36_bits : wordWellFormed 0x800000000 = false ∧ wordWellFormed 0x7FFFFFFFF = true := by decide
theorem test_wf_op_refuses_8 : opWellFormed 8 = false ∧ opWellFormed 7 = true := by decide
theorem test_wf_round_refuses : roundWellFormed 0x800 0 0 = false ∧ roundWellFormed 0 0x2000 0 = false ∧
    roundWellFormed 0 0 2 = false ∧ roundWellFormed 0x7FF 0x1FFF 1 = true := by decide
theorem test_wf_nan16Sig_refuses : nan16SigWellFormed 0 = false ∧ nan16SigWellFormed 0x400 = false ∧
    nan16SigWellFormed 1 = true ∧ nan16SigWellFormed 0x3FF = true := by decide
theorem test_wf_term_refuses_2 : termWellFormed 2 = false ∧ termWellFormed 1 = true := by decide
theorem test_wf_classCode_refuses_5 : classCodeWellFormed 5 = false ∧ classCodeWellFormed 4 = true := by decide

/-! ### Words written out bit by bit: `op` in three bits, then the 32 bits of `a` (30_encoding.md R33 to R35) -/

theorem test_decode_decomp32 :
    decode ⟨0b00000111111000000000000000000000000#35, 0⟩ = .decomp32 0x3F000000#32 := by decide
theorem test_decode_decomp16 :
    decode ⟨0b00100010010001101000011110000000000#35, 0⟩ = .decomp16 0x3C00#16 := by decide
theorem test_decode_class32 :
    decode ⟨0b01001111111110000000000000000000000#35, 0⟩ = .class32 0x7FC00000#32 := by decide
theorem test_decode_class16 :
    decode ⟨0b01111111111111111110000010000000000#35, 0⟩ = .class16 0x0400#16 := by decide
theorem test_decode_round :
    decode ⟨0b10011111111100000000000110000000001#35, 0⟩ = .round 0x401#11 0x1001#13 true := by decide
theorem test_decode_round_fields :
    decode ⟨0b10000000000100000000000010000000001#35, 0⟩ = .round 0x401#11 0x1000#13 false := by decide
theorem test_decode_narrow :
    decode ⟨0b10101000000010010010000111111011011#35, 0⟩ = .narrow 0x40490FDB#32 := by decide
theorem test_decode_decode32 :
    decode ⟨0b11001000000010010010000111111011011#35, 64⟩ = .decode32 0x40490FDB#32 64 := by decide
theorem test_decode_decode16 :
    decode ⟨0b11100000000000000000100001001001000#35, 64⟩ = .decode16 0x4248#16 64 := by decide

/-- 95_test_vectors.md section 3.4, a row with `sticky` set. -/
theorem test_encode_round : encode (.round 0x401#11 0x1000#13 true) = ⟨0x401800401#35, 0⟩ := by decide
/-- 95_test_vectors.md P1, step 3. -/
theorem test_encode_decode16 : encode (.decode16 0x4248#16 64) = ⟨0x700004248#35, 64⟩ := by decide
theorem test_decodeNumber_refuses_by_name : decodeNumber 0x800000000 0 = .error .wordTooWide := rfl
theorem test_decodeTableWord : decodeTableWord 40 0x53F800000 = some (.narrow 0x3F800000#32) := by decide

/-! ### One step of each operation -/

/-- 95_test_vectors.md section 3.1: minus one. -/
theorem test_decomp32 : responseOf (step (State.reset.withFetchWord 40 0x0BF800000)) =
    some (.decomp32 ⟨1#1, 127#8, 0#23, 0⟩) := by decide
/-- 40_decomposer.md R40, corner case: every field all ones. -/
theorem test_decomp32_ones : evaluate State.reset ⟨0x0FFFFFFFF#35, 0⟩ =
    some (.decomp32 ⟨1#1, 255#8, 0x7FFFFF#23, 128⟩) := by decide
/-- 95_test_vectors.md section 3.2: the upper half is ignored. -/
theorem test_decomp16 : evaluate State.reset ⟨0x112343C00#35, 0⟩ = some (.decomp16 ⟨0#1, 15#5, 0#10, 0⟩) := by decide
/-- 95_test_vectors.md section 3.2: largest subnormal, negative. -/
theorem test_decomp16_subnormal : evaluate State.reset ⟨0x1000083FF#35, 0⟩ =
    some (.decomp16 ⟨1#1, 0#5, 0x3FF#10, -15⟩) := by decide
/-- 95_test_vectors.md section 3.3. -/
theorem test_class32 : evaluate State.reset ⟨0x27F7FFFFF#35, 0⟩ = some (.class32 .normal) ∧
    evaluate State.reset ⟨0x2FF800001#35, 0⟩ = some (.class32 .nan) := by decide
/-- 95_test_vectors.md section 3.3. -/
theorem test_class16 : evaluate State.reset ⟨0x300007C00#35, 0⟩ = some (.class16 .infinity) ∧
    evaluate State.reset ⟨0x3000003FF#35, 0⟩ = some (.class16 .subnormal) := by decide
/-- 95_test_vectors.md section 3.4: the carry, with the ignored bits set. -/
theorem test_round_carry : evaluate State.reset ⟨0x4FE8007FF#35, 0⟩ = some (.round 0x400#11 1#1) := by decide
/-- 95_test_vectors.md section 3.4: a false tie broken by sticky. -/
theorem test_round_sticky : evaluate State.reset ⟨0x401800400#35, 0⟩ = some (.round 0x401#11 0#1) := by decide
/-- 95_test_vectors.md section 3.5: a tie whose rounding carries into the exponent; a shift by 43. -/
theorem test_narrow_carry_and_large_shift : evaluate State.reset ⟨0x53FFFF000#35, 0⟩ = some (.narrow 0x4000#16) ∧
    evaluate State.reset ⟨0x523000001#35, 0⟩ = some (.narrow 0x0000#16) := by decide
/-- 95_test_vectors.md section 3.5, NaNs under three values of `NAN16_SIG`. -/
theorem test_narrow_nan : narrowWith 0x200#10 0xFFC00000#32 = 0xFE00#16 ∧ narrowWith 0x001#10 0x7F800001#32 = 0x7C01#16 ∧
    narrowWith 0x3FF#10 0xFFFFFFFF#32 = 0xFFFF#16 := by decide
/-- 95_test_vectors.md section 3.6. -/
theorem test_decode32_natural : natural32 0x2EDBE6FF#32 = "+1.10110111110011011111111 2^-34".toList := by decide
/-- 95_test_vectors.md section 3.6, truncation under both values of `TERM`. -/
theorem test_decode32_truncated : bounded 0 32 (natural32 0x00000001#32) = "+0.00000000000000000000001 2^-12".toList ∧
    bounded 1 3 (natural32 0xFF800000#32) = "-I".toList := by decide
/-- 95_test_vectors.md section 3.6. -/
theorem test_decode16_natural : natural16 0xFBFF#16 = "-1.1111111111 2^15".toList := by decide
/-- 95_test_vectors.md section 3.6, truncation under both values of `TERM`. -/
theorem test_decode16_truncated : bounded 0 12 (natural16 0x83FF#16) = "-0.111111111".toList ∧
    bounded 1 12 (natural16 0x83FF#16) = "-0.11111111".toList := by decide
/-- 20_memory.md R28 and 44_formatter.md R75, worked by hand for a terminated buffer of four bytes. -/
theorem test_bufferBytes : bufferBytes 1 0#8 4 (bounded 1 4 (natural32 0xFF800000#32)) =
    [0x2D#8, 0x49#8, 0x4E#8, 0x00#8] := by decide
/-- 95_test_vectors.md P5, step 2. -/
theorem test_coreOnly_refuses : stepCoreOnly (State.reset.present ⟨0x700003C00#35, 64⟩) =
    .refused (.outsideCore "DECODE16") := rfl

/-! ### Hypotheses that are met -/

theorem test_hyp_IgnoredBitsDoNotChangeTheResponse :
    Request.agreesWith ⟨0x112343C00#35, 0⟩ ⟨0x100003C00#35, 5⟩ = true ∧
    Request.agreesWith ⟨0x4FE8007FF#35, 1⟩ ⟨0x4008007FF#35, 0⟩ = true ∧
    Request.agreesWith ⟨0x53F800000#35, 7⟩ ⟨0x53F800000#35, 0⟩ = true ∧
    Request.agreesWith ⟨0x7FFFF0001#35, 7⟩ ⟨0x700000001#35, 7⟩ = true := by decide

theorem test_hyp_ExecLeavesTheRequestAndGivesItsOwnRecord : exec (.narrow 0x3F800000#32) State.reset =
    .next ⟨⟨0#35, 0⟩, some (.narrow (narrow 0x3F800000#32))⟩ := rfl

theorem test_hyp_EvaluationIsIdempotent : step State.reset = .next ⟨⟨0#35, 0⟩, some (.decomp32 (decompose32 0#32))⟩ := rfl

theorem test_hyp_ResponseInvariantIsKeptByEveryStep :
    Inv ⟨⟨0x200000000#35, 0⟩, some (.round 0x400#11 1#1)⟩ ∧
    step ⟨⟨0x200000000#35, 0⟩, some (.round 0x400#11 1#1)⟩ = .next ⟨⟨0x200000000#35, 0⟩, some (.class32 (class32 0#32))⟩ := by
  refine ⟨fun r hr => ?_, rfl⟩
  cases hr
  exact fun _ => rfl

/-- Two instances, so `k` is 0 or 1: nothing is scheduled on 0, two requests on 1, and one on an instance that does not exist
(log 19). The responses are those of 95_test_vectors.md sections 3.2 and 3.3. -/
theorem test_hyp_InterleavingsOnInstancesDoNotInteract :
    0 < [State.reset, State.reset].length ∧ 1 < [State.reset, State.reset].length ∧
    evaluateAll [(1, ⟨0x100003C00#35, 0⟩), (2, ⟨0x2FF800001#35, 0⟩), (1, ⟨0x300007C00#35, 0⟩)] [State.reset, State.reset] =
      .next [State.reset, ⟨⟨0x300007C00#35, 0⟩, some (.class16 .infinity)⟩] :=
  ⟨by decide, by decide, rfl⟩

theorem test_hyp_CoreOnlyBlockRefusesTheFormatterByName : (0#3).toNat < 6 ∧ (5#3).toNat < 6 := by decide

theorem test_hyp_RoundGivesMantissaAndCarry :
    0x800 = (0x7FF#11).toNat + (if (0x1000#13).toNat > 0x1000 ∨
      ((0x1000#13).toNat = 0x1000 ∧ ((0x7FF#11).toNat % 2 = 1 ∨ false = true)) then 1 else 0) ∧
    0x7FF = (0x7FF#11).toNat + (if (0x0FFF#13).toNat > 0x1000 ∨
      ((0x0FFF#13).toNat = 0x1000 ∧ ((0x7FF#11).toNat % 2 = 1 ∨ true = true)) then 1 else 0) := by decide

theorem test_hyp_RoundUpFollowsTheDecisionTable : 0x0FFF < 0x1000 ∧ 0x400 % 2 = 0 ∧ 0x401 % 2 = 1 ∧ 0x1001 > 0x1000 ∧
    roundUp 0x400 0x0FFF true = false ∧ roundUp 0x400 0x1000 false = false ∧ roundUp 0x401 0x1000 false = true ∧
    roundUp 0x400 0x1000 true = true ∧ roundUp 0x400 0x1001 false = true := by decide

theorem test_hyp_RoundingCarryIsRenormalised :
    0x800 = 0x7FF + (if roundUp 0x7FF 0x1000 false then 1 else 0) ∧
    0x7FF = 0x7FE + (if roundUp 0x7FE 0x1000 true then 1 else 0) := by decide

theorem test_hyp_RoundRangesAndWorkedCases : roundMain 0x7FF 0x1FFF true = (0x400, 1) ∧ roundMain 0 0 false = (0, 0) := by
  decide

theorem test_hyp_RoundIsToNearestTiesToEven :
    (0x400 * 2 ^ 14 + 2 * 0x1000 : Int) = 0x400 * 2 ^ 14 + 2 * 0x1000 + (if false then 1 else 0) ∧
    (0x400 : Int) = (roundMain 0x400 0x1000 false).1 * 2 ^ (roundMain 0x400 0x1000 false).2 ∧
    |(0x400 : Int) * 2 ^ 14 - (0x400 * 2 ^ 14 + 2 * 0x1000)| = |(0x401 : Int) * 2 ^ 14 - (0x400 * 2 ^ 14 + 2 * 0x1000)| := by
  decide

theorem test_hyp_NarrowOfNaN : (0x001#10 ≠ 0#10) ∧ (0x3FF#10 ≠ 0#10) ∧ class32 0x7F800001#32 = .nan ∧
    class32 0xFFFFFFFF#32 = .nan := by decide

theorem test_hyp_NaNSignificandMattersForNaNOnly : class32 0x7F800000#32 ≠ .nan := by decide

theorem test_hyp_NarrowSaturatesToSignedInfinity :
    (class32 0x47800000#32 = .normal ∧ (bexp32 0x47800000#32).toNat = 143) ∧
    (class32 0x477FF000#32 = .normal ∧ (bexp32 0x477FF000#32).toNat = 142 ∧ (sig32 0x477FF000#32).toNat = 0x7FF000) ∧
    class32 0xFF800000#32 = .infinity ∧ class32 0x477FE001#32 ≠ .nan := by decide

theorem test_hyp_NarrowOfSmallIsSignedZero : (bexp32 0x32FFFFFF#32).toNat = 101 ∧ (bexp32 0x80000000#32).toNat = 0 := by decide

/-- 95_test_vectors.md section 3.5, at both ends of the rows; the ends of neighbouring rows are neighbouring magnitudes. -/
theorem test_hyp_NarrowFollowsTheRangeTable :
    narrow 0x33000000#32 = 0#16 ∧ narrow 0x33000001#32 = 1#16 ∧ narrow 0x33BFFFFF#32 = 1#16 ∧ narrow 0x33C00000#32 = 2#16 ∧
    narrow 0x34200000#32 = 2#16 ∧ narrow 0x34200001#32 = 3#16 ∧ narrow 0x387FDFFF#32 = 0x3FF#16 ∧
    narrow 0x387FE000#32 = 0x400#16 ∧ narrow 0x38801000#32 = 0x400#16 ∧ narrow 0x38801001#32 = 0x401#16 ∧
    narrow 0x477FEFFF#32 = 0x7BFF#16 ∧ narrow 0x477FF000#32 = 0x7C00#16 ∧ narrow 0x7F7FFFFF#32 = 0x7C00#16 ∧
    narrow 0x7F800000#32 = 0x7C00#16 := by decide

theorem test_hyp_NarrowIsMonotone : class32 0x387FDFFF#32 ≠ .nan ∧ class32 0xB87FE000#32 ≠ .nan ∧
    (0x387FDFFF#32).toNat % 2 ^ 31 ≤ (0xB87FE000#32).toNat % 2 ^ 31 := by decide

/-- 2^-25 is as far from zero, its result, as from the smallest subnormal. -/
theorem test_hyp_NarrowIsCorrectlyRounded :
    (class32 0x33000000#32 ≠ .nan ∧ (0x33000000#32).toNat % 2 ^ 31 < 0x477FF000 ∧ finite16 0x0001#16 = true ∧
      |value16 0x0000#16 - value32 0x33000000#32| = |value16 0x0001#16 - value32 0x33000000#32| ∧
      value16 0x0001#16 ≠ value16 0x0000#16) ∧
    narrow 0x33000000#32 = 0x0000#16 ∧
    ((0x477FEFFF#32).toNat % 2 ^ 31 < 0x477FF000 ∧ (0x477FF000#32).toNat % 2 ^ 31 ≥ 0x477FF000 ∧
      finite32 0x477FF000#32 = true) := by
  have h0 : value16 0x0000#16 = 0 := by
    rw [value16_eq_scaled, show scaled16 0x0000#16 = 0 by decide]; simp
  have h1 : value16 0x0001#16 = 1 / 2 ^ 24 := by
    rw [value16_eq_scaled, show scaled16 0x0001#16 = 2 ^ 125 by decide, show sign16 0x0001#16 = 0#1 by decide]
    norm_num [signFactor]
  have h2 : value32 0x33000000#32 = 1 / 2 ^ 25 := by
    rw [value32_eq_scaled, show scaled32 0x33000000#32 = 2 ^ 124 by decide, show sign32 0x33000000#32 = 0#1 by decide]
    norm_num [signFactor]
  refine ⟨⟨by decide, by decide, by decide, ?_, ?_⟩, by decide, by decide⟩
  · rw [h0, h1, h2]; norm_num
  · rw [h0, h1]; norm_num

theorem test_hyp_NarrowIsExactOnRepresentableValues :
    (finite32 0x33800000#32 = true ∧ finite16 0x0001#16 = true ∧ sign32 0x33800000#32 = sign16 0x0001#16 ∧
      value32 0x33800000#32 = value16 0x0001#16) ∧
    (class16 0x7BFF#16 = .normal ∧ (0x477FE000#32).toNat = assemble32 (sign16 0x7BFF#16).toNat
      ((bexp16 0x7BFF#16).toNat + 112) ((sig16 0x7BFF#16).toNat * 2 ^ 13)) := by
  refine ⟨⟨by decide, by decide, by decide, ?_⟩, by decide⟩
  rw [value32_eq_scaled, value16_eq_scaled, show scaled32 0x33800000#32 = scaled16 0x0001#16 by decide,
    show sign32 0x33800000#32 = sign16 0x0001#16 by decide]

theorem test_hyp_NarrowTiesGoToEven :
    (0x38800000 ≤ (0x38801000#32).toNat % 2 ^ 31 ∧ (0x38801000#32).toNat % 2 ^ 13 = 0x1000 ∧
      (0x38801000#32).toNat / 2 ^ 13 % 2 = 0) ∧
    ((0x7F7FF000#32).toNat % 2 ^ 31 < 0x7F800000 ∧ (0x7F7FF000#32).toNat % 2 ^ 13 = 0x1000 ∧
      (0x7F7FF000#32).toNat / 2 ^ 13 % 2 = 1) := by decide

theorem test_hyp_NarrowPromotesToTheSmallestNormal :
    (0x387FE000 ≤ (0x387FE000#32).toNat % 2 ^ 31 ∧ (0xB87FFFFF#32).toNat % 2 ^ 31 ≤ 0x387FFFFF) ∧
    narrow 0x387FE000#32 = 0x0400#16 ∧ narrow 0xB87FFFFF#32 = 0x8400#16 := by decide

/-- 95_test_vectors.md section 3.5, the columns of intermediate values: shift 1 and shift 113, and the first normal. -/
theorem test_hyp_NarrowIntermediateValuesStayInRange :
    align (decompose32 0x387FFFFF#32).sig.toNat (decompose32 0x387FFFFF#32).uexp = ⟨-14, 0x3FF, 0x1FFF, true⟩ ∧
    align (decompose32 0x007FFFFF#32).sig.toNat (decompose32 0x007FFFFF#32).uexp = ⟨-14, 0, 0, true⟩ ∧
    align (decompose32 0x38800FFF#32).sig.toNat (decompose32 0x38800FFF#32).uexp = ⟨-14, 0x400, 0x0FFF, false⟩ ∧
    (decompose32 0x387FFFFF#32).uexp = -15 ∧ (decompose32 0x38800FFF#32).uexp = -14 := by decide

theorem test_hyp_NaturalRenderingFollowsTheClass :
    (class32 0x7F800000#32 = .infinity ∧ class32 0x7FC00000#32 = .nan ∧ class32 0x80000000#32 = .zero ∧
      class32 0x00800000#32 = .normal ∧ class32 0x007FFFFF#32 = .subnormal) ∧
    (class16 0xFC00#16 = .infinity ∧ class16 0x7C01#16 = .nan ∧ class16 0x0000#16 = .zero ∧
      class16 0x7BFF#16 = .normal ∧ class16 0x03FF#16 = .subnormal) ∧
    (if slice (0x80000000#32).toNat 31 31 = 0 then '+' else '-') = '-' ∧
    (if slice (0x7BFF#16).toNat 15 15 = 0 then '+' else '-') = '+' := by decide

/-- The first and the last mantissa character, and the space after it, of 95_test_vectors.md section 3.6 renderings. -/
theorem test_hyp_MantissaCharactersAreTheBits :
    (class32 0x00400000#32 = .subnormal ∧ (natural32 0x00400000#32)[3]? = some '1' ∧
      (natural32 0x00400000#32)[25]? = some '0' ∧ (natural32 0x00400000#32)[26]? = some ' ') ∧
    (class16 0x0201#16 = .subnormal ∧ (natural16 0x0201#16)[3]? = some '1' ∧ (natural16 0x0201#16)[12]? = some '1' ∧
      (natural16 0x0201#16)[13]? = some ' ') := by decide

theorem test_hyp_TextIsABoundedPrefix :
    (∃ a : BitPattern32, natural32 0x00000001#32 = natural32 a) ∧ (natural32 0x00000001#32).length = 33 ∧
    bounded 1 34 (natural32 0x00000001#32) = natural32 0x00000001#32 ∧ (bounded 1 33 (natural32 0x00000001#32)).length = 32 ∧
    bounded 0 0 (natural32 0x00000001#32) = [] := ⟨⟨_, rfl⟩, by decide⟩

/-- An exponent at each end of each row. -/
theorem test_hyp_NaturalRenderingLengths :
    (∀ p ∈ ([(0x3F800000#32, 0), (0x44000000#32, 9), (0x44800000#32, 10), (0x71000000#32, 99), (0x3B000000#32, -9),
        (0x3F000000#32, -1), (0x71800000#32, 100), (0x7F000000#32, 127), (0x0E000000#32, -99), (0x3A800000#32, -10),
        (0x00800000#32, -126), (0x0D800000#32, -100)] : List (BitVec 32 × Int)),
      class32 p.1 = .normal ∧ (decompose32 p.1).uexp = p.2) ∧
    (∀ p ∈ ([(0x3C00#16, 0), (0x6000#16, 9), (0x6400#16, 10), (0x7BFF#16, 15), (0x1800#16, -9), (0x3800#16, -1),
        (0x0400#16, -14), (0x1400#16, -10)] : List (BitVec 16 × Int)),
      class16 p.1 = .normal ∧ (decompose16 p.1).uexp = p.2) := by decide

theorem test_hyp_RenderingDistinguishesAllButNaNs : natural32 0x7F800001#32 = natural32 0xFFC00000#32 ∧
    natural16 0x7E00#16 = natural16 0xFE00#16 := by decide

theorem test_hyp_HostBufferIsNeverOverrun :
    (bounded 1 4 (natural32 0xFF800000#32))[2]? = some 'N' ∧ (0 < 4) ∧ bounded 1 0 (natural32 0xFF800000#32) = [] := by decide

/-- 95_test_vectors.md S2 to S5. -/
theorem test_hyp_DocumentExamplesOfDecode : 64 ≤ 64 ∧ 8 ≤ 8 ∧ bounded 1 8 (natural32 0xFF800000#32) = ['-', 'I', 'N', 'F'] ∧
    bounded 0 0 (natural32 0xFF800000#32) = [] := by decide

end Sys2Proof.Tests
end

section
/-! The block as one function of the request (10_state.md R10): the response of each operation, and that `exec` and `step`
do nothing but produce it. -/

namespace Sys2Proof

open Machine

/-- The response of an operation, with no state in sight; `exec_eq_respond` ties it to the machine. -/
def Instr.response : Instr → Response
  | .decomp32 a => .decomp32 (decompose32 a)
  | .decomp16 h => .decomp16 (decompose16 h)
  | .class32 a => .class32 (Machine.class32 a)
  | .class16 h => .class16 (Machine.class16 h)
  | .round main remainder sticky =>
    .round (BitVec.ofNat 11 (roundMain main.toNat remainder.toNat sticky).1)
      (BitVec.ofNat 1 (roundMain main.toNat remainder.toNat sticky).2)
  | .narrow a => .narrow (Machine.narrow a)
  | .decode32 a maxLength => .decode32 (bounded Config.term maxLength (natural32 a))
  | .decode16 h maxLength => .decode16 (bounded Config.term maxLength (natural16 h))

/-- Every operation ends by producing its response and does nothing else, in every state (60_exceptions.md R80). -/
theorem exec_eq_respond (i : Instr) (s : State) : exec i s = respond i.response s := by
  cases i with
  | decomp32 a => exact exec_decomp32 a s
  | decomp16 h => exact exec_decomp16 h s
  | class32 a => exact exec_class32 a s
  | class16 h => exact exec_class16 h s
  | round main remainder sticky => exact exec_round main remainder sticky s
  | narrow a => exact exec_narrow a s
  | decode32 a maxLength => exact exec_decode32 a maxLength s
  | decode16 h maxLength => exact exec_decode16 h maxLength s

/-- A step produces the response of the decoded request; the response that stood in the state is not read. -/
theorem step_eq_respond (s : State) : step s = respond (decode s.request).response s :=
  exec_eq_respond (decode s.request) s

/-- Settles O10: `f` decodes the request and takes the operation's response. -/
theorem stepIsAFunctionOfTheRequest : Obligations.StepIsAFunctionOfTheRequest := by
  unfold Obligations.StepIsAFunctionOfTheRequest
  exact ⟨fun r => (decode r).response, step_eq_respond⟩

end Sys2Proof
end

section
/-! The fields of a pattern are the slices `v[hi:lo]` of its number (30_encoding.md R30, R31), and with them the decomposer
in slices (40_decomposer.md R40, R41). -/

namespace Sys2Proof.Machine

/-- A field of `n + 1` bits from bit `lo` on is the slice `[lo + n:lo]`. -/
theorem toNat_extractLsb'_eq_slice {w : Nat} (v : BitVec w) (lo n : Nat) :
    (v.extractLsb' lo (n + 1)).toNat = slice v.toNat (lo + n) lo := by
  rw [BitVec.extractLsb'_toNat, Nat.shiftRight_eq_div_pow, slice, Nat.add_sub_cancel_left]

theorem sign32_toNat_eq_slice (a : BitPattern32) : (sign32 a).toNat = slice a.toNat 31 31 :=
  toNat_extractLsb'_eq_slice a 31 0
theorem bexp32_toNat_eq_slice (a : BitPattern32) : (bexp32 a).toNat = slice a.toNat 30 23 :=
  toNat_extractLsb'_eq_slice a 23 7
theorem sig32_toNat_eq_slice (a : BitPattern32) : (sig32 a).toNat = slice a.toNat 22 0 :=
  toNat_extractLsb'_eq_slice a 0 22

theorem sign16_toNat_eq_slice (h : BitPattern16) : (sign16 h).toNat = slice h.toNat 15 15 :=
  toNat_extractLsb'_eq_slice h 15 0
theorem bexp16_toNat_eq_slice (h : BitPattern16) : (bexp16 h).toNat = slice h.toNat 14 10 :=
  toNat_extractLsb'_eq_slice h 10 4
theorem sig16_toNat_eq_slice (h : BitPattern16) : (sig16 h).toNat = slice h.toNat 9 0 :=
  toNat_extractLsb'_eq_slice h 0 9

/-- R40's pseudocode: `uexp` is the exponent field less 127, whatever the field (40_decomposer.md R40, R42). -/
theorem decompose32_eq_slices (a : BitPattern32) : decompose32 a =
    { sign := BitVec.ofNat 1 (slice a.toNat 31 31)
      bexp := BitVec.ofNat 8 (slice a.toNat 30 23)
      sig := BitVec.ofNat 23 (slice a.toNat 22 0)
      uexp := (slice a.toNat 30 23 : Int) - 127 } := by
  rw [← sign32_toNat_eq_slice, ← bexp32_toNat_eq_slice, ← sig32_toNat_eq_slice]
  simp only [BitVec.ofNat_toNat, BitVec.setWidth_eq]
  rfl

/-- R41's pseudocode: `uexp` is the exponent field less 15, whatever the field (40_decomposer.md R41, R42). -/
theorem decompose16_eq_slices (h : BitPattern16) : decompose16 h =
    { sign := BitVec.ofNat 1 (slice h.toNat 15 15)
      bexp := BitVec.ofNat 5 (slice h.toNat 14 10)
      sig := BitVec.ofNat 10 (slice h.toNat 9 0)
      uexp := (slice h.toNat 14 10 : Int) - 15 } := by
  rw [← sign16_toNat_eq_slice, ← bexp16_toNat_eq_slice, ← sig16_toNat_eq_slice]
  simp only [BitVec.ofNat_toNat, BitVec.setWidth_eq]
  rfl

end Sys2Proof.Machine

namespace Sys2Proof

open Machine

/-- Settles O18: the operation responds with the decomposed pattern, whose fields are the slices. -/
theorem decomp32GivesTheFields : Obligations.Decomp32GivesTheFields := by
  unfold Obligations.Decomp32GivesTheFields
  intro a s
  rw [exec_decomp32, respond_next_iff, decompose32_eq_slices]

/-- Settles O19: the operation responds with the decomposed pattern, whose fields are the slices. -/
theorem decomp16GivesTheFields : Obligations.Decomp16GivesTheFields := by
  unfold Obligations.Decomp16GivesTheFields
  intro h s
  rw [exec_decomp16, respond_next_iff, decompose16_eq_slices]

end Sys2Proof
end

section
/-! The classifier against its table (41_classifier.md R45): the class computed is the one whose row holds, and the two
fields that it reads do not see the sign bit. -/

namespace Sys2Proof.Machine

/-- The row of the class computed holds, for an exponent field that the format has: above the all-one field the pseudocode
of R45 still answers Normal, where no row of the table holds. -/
theorem classRow_classify {bexp sig allOne : Nat} (hle : bexp ≤ allOne) :
    ClassRow (classify bexp sig allOne) bexp sig allOne := by
  unfold classify
  split_ifs with hzero hsig hone hsig
  · exact ⟨hzero, hsig⟩
  · exact ⟨hzero, hsig⟩
  · exact ⟨hone, hsig⟩
  · exact ⟨hone, hsig⟩
  · exact ⟨Nat.pos_of_ne_zero hzero, Nat.lt_of_le_of_ne hle hone⟩

/-- A class whose row holds is the class computed, so at most one row holds: the all-zero and the all-one exponent fields
differ. -/
theorem classify_eq_of_classRow {bexp sig allOne : Nat} (hpos : 0 < allOne) {c : FpClass}
    (hrow : ClassRow c bexp sig allOne) : classify bexp sig allOne = c := by
  have hends : allOne ≠ 0 := Nat.ne_of_gt hpos
  cases c with
  | zero => obtain ⟨hbexp, hsig⟩ := hrow; simp [classify, hbexp, hsig]
  | subnormal => obtain ⟨hbexp, hsig⟩ := hrow; simp [classify, hbexp, hsig]
  | normal => obtain ⟨hlow, hhigh⟩ := hrow; simp [classify, Nat.ne_of_gt hlow, Nat.ne_of_lt hhigh]
  | infinity => obtain ⟨hbexp, hsig⟩ := hrow; simp [classify, hbexp, hsig, hends]
  | nan => obtain ⟨hbexp, hsig⟩ := hrow; simp [classify, hbexp, hsig, hends]

theorem class32_eq_iff_classRow (a : BitPattern32) (c : FpClass) :
    class32 a = c ↔ ClassRow c (bexp32 a).toNat (sig32 a).toNat 255 :=
  ⟨fun h => h ▸ classRow_classify (Nat.le_of_lt_succ (bexp32 a).isLt), classify_eq_of_classRow (by decide)⟩

theorem class16_eq_iff_classRow (h : BitPattern16) (c : FpClass) :
    class16 h = c ↔ ClassRow c (bexp16 h).toNat (sig16 h).toNat 31 :=
  ⟨fun hc => hc ▸ classRow_classify (Nat.le_of_lt_succ (bexp16 h).isLt), classify_eq_of_classRow (by decide)⟩

/-- A field is unchanged by a mask with no bit in it. -/
theorem extractLsb'_xor_of_mask_zero {w : Nat} (v mask : BitVec w) {lo n : Nat} (hmask : mask.extractLsb' lo n = 0#n) :
    (v ^^^ mask).extractLsb' lo n = v.extractLsb' lo n := by
  rw [BitVec.extractLsb'_xor, hmask, BitVec.xor_zero]

/-- The class is computed from the exponent field and the significand, and the sign bit is in neither. -/
theorem class32_flipSign (a : BitPattern32) : class32 (a ^^^ 0x80000000#32) = class32 a := by
  have hbexp : bexp32 (a ^^^ 0x80000000#32) = bexp32 a := extractLsb'_xor_of_mask_zero a _ (by decide)
  have hsig : sig32 (a ^^^ 0x80000000#32) = sig32 a := extractLsb'_xor_of_mask_zero a _ (by decide)
  rw [class32_eq_iff_classRow, hbexp, hsig, ← class32_eq_iff_classRow]

theorem class16_flipSign (h : BitPattern16) : class16 (h ^^^ 0x8000#16) = class16 h := by
  have hbexp : bexp16 (h ^^^ 0x8000#16) = bexp16 h := extractLsb'_xor_of_mask_zero h _ (by decide)
  have hsig : sig16 (h ^^^ 0x8000#16) = sig16 h := extractLsb'_xor_of_mask_zero h _ (by decide)
  rw [class16_eq_iff_classRow, hbexp, hsig, ← class16_eq_iff_classRow]

theorem exec_class32_next_iff (a : BitPattern32) (s : State) (c : FpClass) :
    exec (.class32 a) s = .next { s with response := some (.class32 c) } ↔ class32 a = c := by
  rw [exec_class32, respond_next_iff]
  simp [eq_comm]

theorem exec_class16_next_iff (h : BitPattern16) (s : State) (c : FpClass) :
    exec (.class16 h) s = .next { s with response := some (.class16 c) } ↔ class16 h = c := by
  rw [exec_class16, respond_next_iff]
  simp [eq_comm]

end Sys2Proof.Machine

namespace Sys2Proof

open Machine

/-- Settles O22: the response is the pattern's class, whose row holds of the fields; the fields are the slices and do not
hold the sign bit. -/
theorem classOperationsFollowTheTable : Obligations.ClassOperationsFollowTheTable := by
  unfold Obligations.ClassOperationsFollowTheTable
  refine ⟨fun a s c => ?_, fun h s c => ?_, class32_flipSign, class16_flipSign⟩
  · rw [exec_class32_next_iff, class32_eq_iff_classRow, bexp32_toNat_eq_slice, sig32_toNat_eq_slice]
  · rw [exec_class16_next_iff, class16_eq_iff_classRow, bexp16_toNat_eq_slice, sig16_toNat_eq_slice]

/-- Settles O24: the rows that hold are those of the classes equal to the one computed. -/
theorem exactlyOneClassApplies : Obligations.ExactlyOneClassApplies := by
  unfold Obligations.ExactlyOneClassApplies
  simp only [← class32_eq_iff_classRow, ← class16_eq_iff_classRow]
  exact ⟨fun _ => ⟨existsUnique_eq', trivial⟩, fun _ => ⟨existsUnique_eq', trivial⟩⟩

end Sys2Proof
end

section
/-! The rounding logic against its pseudocode and its decision table (42_rounding.md R50, R51): the two cases in which the
candidate is left as it is, and the pair of results as a function of the incremented candidate. -/

namespace Sys2Proof.Machine

/-- The rows of R51's table that do not increment: below half, and an exact tie on an even candidate. -/
theorem roundUp_eq_false_iff (main remainder : Nat) (sticky : Bool) :
    roundUp main remainder sticky = false ↔
      remainder < 0x1000 ∨ (remainder = 0x1000 ∧ main % 2 = 0 ∧ sticky = false) := by
  rw [← Bool.not_eq_true, roundUp_iff]
  cases sticky with
  | false => simp only [Bool.false_eq_true, or_false, and_true]; omega
  | true => simp only [or_true, and_true, Bool.true_eq_false, and_false, or_false]; omega

/-- The last two lines of R50's pseudocode, for the incremented candidate `t`: both results are read off `t`. -/
theorem roundMain_eq_of_incremented {main remainder t : Nat} {sticky : Bool}
    (ht : t = main + if roundUp main remainder sticky then 1 else 0) :
    roundMain main remainder sticky = (if t > 0x7FF then t / 2 else t, if t > 0x7FF then 1 else 0) := by
  obtain ⟨up, hup, hcases⟩ := roundMain_cases main remainder sticky
  rw [← hup] at ht
  rw [← ht] at hcases
  obtain ⟨hfits, hround⟩ | ⟨hcarry, hround⟩ := hcases
  · rw [hround, if_neg (Nat.not_lt.mpr hfits), if_neg (Nat.not_lt.mpr hfits)]
  · rw [hround, if_pos hcarry, if_pos hcarry]

end Sys2Proof.Machine

namespace Sys2Proof

open Machine

/-- Settles O28: each row is one of the cases that increment or one of those that do not. -/
theorem roundUpFollowsTheDecisionTable : Obligations.RoundUpFollowsTheDecisionTable := by
  unfold Obligations.RoundUpFollowsTheDecisionTable
  intro main remainder sticky
  simp only [roundUp_iff, roundUp_eq_false_iff]
  exact ⟨fun hbelow => .inl hbelow, fun hhalf hsticky heven => .inr ⟨hhalf, heven, hsticky⟩,
    fun hhalf _ hodd => .inr ⟨hhalf, .inl hodd⟩, fun hhalf hsticky => .inr ⟨hhalf, .inr hsticky⟩,
    fun habove => .inl habove⟩

/-- Settles O27: `t` is the candidate incremented by the round-up decision, and the response is the pair read off it. -/
theorem roundGivesMantissaAndCarry : Obligations.RoundGivesMantissaAndCarry := by
  unfold Obligations.RoundGivesMantissaAndCarry
  intro main remainder sticky s t ht
  have hincremented : t = main.toNat + if roundUp main.toNat remainder.toNat sticky then 1 else 0 := by
    simpa only [roundUp_iff] using ht
  constructor
  · rw [exec_round, respond_next_iff, roundMain_eq_of_incremented hincremented]
  · have hmain : main.toNat ≤ 0x7FF := Nat.le_of_lt_succ main.isLt
    split_ifs at hincremented <;> omega

end Sys2Proof
end

section
/-! The converter past its NaN exit (43_converter.md R59 to R63): what the alignment hands to the rounding, and the result
as a sign and a magnitude. A rounding carry moves into the exponent field as the carry of one addition does, so the
magnitude is one sum, capped at the infinity. -/

namespace Sys2Proof.Machine

/-- What the alignment promises of its candidate: it fits 11 bits, its exponent is not below the least one, and its leading
bit is there except on the subnormal grid. -/
def Candidate.InRange (c : Candidate) : Prop :=
  -14 ≤ c.e ∧ c.main ≤ 0x7FF ∧ (c.main < 0x400 → c.e = -14)

/-- The magnitude that a candidate ends in, as a 15-bit number: exponent field and significand with the rounding increment
added across both, capped at the infinity. -/
def Candidate.magnitude (c : Candidate) : Nat :=
  min 0x7C00 ((c.e + 14).toNat * 2 ^ 10 + c.main + if roundUp c.main c.remainder c.sticky then 1 else 0)

theorem Candidate.magnitude_le (c : Candidate) : c.magnitude ≤ 0x7C00 := Nat.min_le_left _ _

theorem align_of_low {m : Nat} {e : Int} (h : e < -14) : align m e = alignSubnormal m e := if_pos h

theorem align_of_high {m : Nat} {e : Int} (h : -14 ≤ e) : align m e = candidate m e := if_neg (Int.not_lt.mpr h)

/-- Below the least normal exponent the shift is by at least one, and the leading bit leaves its place. -/
theorem alignSubnormal_main_lt {m : Nat} (hm : m < 2 ^ 23) {e : Int} (h : e < -14) : (alignSubnormal m e).main < 0x400 := by
  have hshift : (2 ^ 23 + m) / 2 ^ (-(e + 14)).toNat ≤ (2 ^ 23 + m) / 2 ^ 1 :=
    Nat.div_le_div_left (Nat.pow_le_pow_right (by decide) (by omega)) (by decide)
  rw [alignSubnormal_main hm]
  omega

theorem align_inRange {m : Nat} (hm : m < 2 ^ 23) (e : Int) : (align m e).InRange := by
  obtain hlow | hhigh := Int.lt_or_le e (-14)
  · have hmain := alignSubnormal_main_lt hm hlow
    rw [align_of_low hlow]
    exact ⟨Int.le_refl _, by omega, fun _ => rfl⟩
  · have hmain := candidate_main hm e
    rw [align_of_high hhigh]
    exact ⟨hhigh, by omega, by omega⟩

/-- Steps 7 and 8 in one sum: the leading bit of a normal mantissa counts one in the exponent field, and on the subnormal
grid its absence leaves that field 0 (43_converter.md R62, R63). -/
theorem emit_eq_add {sign main : Nat} {e : Int} (he : -14 ≤ e) (hmain : main ≤ 0x7FF) (hlead : main < 0x400 → e = -14) :
    emit sign e main = sign * 2 ^ 15 + min 0x7C00 ((e + 14).toNat * 2 ^ 10 + main) := by
  have hsig : main &&& 0x3FF = main % 2 ^ 10 := and_low main 10
  have hbexp : (e + 15).toNat &&& 0x1F = (e + 15).toNat % 2 ^ 5 := and_low _ 5
  simp only [emit, Config.emax16, Config.emin16, hsig, hbexp]
  split_ifs with hbig hsub
  · rw [assemble16_eq_add (by decide) (by decide)]
    omega
  · rw [assemble16_eq_add (by decide) (by omega)]
    omega
  · rw [assemble16_eq_add (by omega) (by omega)]
    omega

/-- Steps 5 to 8 in one sum. A carry halves the mantissa to 0x400 and raises the exponent by one, which is the same
number. -/
theorem finish_eq_add (sign : Nat) {c : Candidate} (hc : c.InRange) : finish sign c = sign * 2 ^ 15 + c.magnitude := by
  obtain ⟨he, hmain, hlead⟩ := hc
  obtain ⟨up, hup, hcases⟩ := roundMain_cases c.main c.remainder c.sticky
  have hup_le : up ≤ 1 := by split_ifs at hup <;> omega
  rw [finish, Candidate.magnitude, ← hup]
  obtain ⟨hfits, hround⟩ | ⟨hcarry, hround⟩ := hcases
  · rw [hround, emit_eq_add (by omega) hfits (by omega)]
    omega
  · rw [hround, emit_eq_add (by omega) (by omega) (by omega)]
    omega

/-- The magnitude of `NARROW`'s result; `narrow_toNat_of_not_nan` ties it to the converter. -/
def narrowMagnitude (a : BitPattern32) : Nat :=
  (align (sig32 a).toNat (unbiased (bexp32 a).toNat 127)).magnitude

theorem narrowMagnitude_le (a : BitPattern32) : narrowMagnitude a ≤ 0x7C00 := Candidate.magnitude_le _

/-- The result of every input that is not a NaN: the input's sign and the rounded magnitude. -/
theorem narrow_toNat_of_not_nan {a : BitPattern32} (h : class32 a ≠ .nan) :
    (narrow a).toNat = (sign32 a).toNat * 2 ^ 15 + narrowMagnitude a := by
  have hsign : (sign32 a).toNat < 2 := (sign32 a).isLt
  have hmag := narrowMagnitude_le a
  rw [narrow, narrowWith, BitVec.toNat_ofNat, narrowNat_of_not_nan h,
    finish_eq_add _ (align_inRange (sig32 a).isLt _), ← narrowMagnitude]
  omega

/-- The 16-bit infinities are the patterns of magnitude 0x7C00 (41_classifier.md R45). -/
theorem class16_eq_infinity_iff (h : BitPattern16) : class16 h = .infinity ↔ h.toNat % 2 ^ 15 = 0x7C00 := by
  rw [class16_eq_iff_classRow, bexp16_toNat, sig16_toNat]
  simp only [ClassRow]
  omega

/-- The magnitude bits of a pattern are its exponent field above its significand. -/
theorem toNat_mod_eq_bexp32_sig32 (a : BitPattern32) :
    a.toNat % 2 ^ 31 = (bexp32 a).toNat * 2 ^ 23 + (sig32 a).toNat := by
  rw [bexp32_toNat, sig32_toNat]
  omega

/-- On the subnormal grid the magnitude is at most the smallest normal one. -/
theorem narrowMagnitude_le_of_low {a : BitPattern32} (h : (bexp32 a).toNat < 113) : narrowMagnitude a ≤ 0x400 := by
  have hlow : unbiased (bexp32 a).toNat 127 < -14 := by unfold unbiased; omega
  have hmain := alignSubnormal_main_lt (sig32 a).isLt hlow
  rw [narrowMagnitude, align_of_low hlow, Candidate.magnitude, alignSubnormal_e]
  split_ifs <;> omega

/-- From the least normal exponent on, the magnitude is the rebiased exponent field above the upper ten bits of the
significand, incremented when the lower thirteen are more than half, or half with the last of those ten set. -/
theorem narrowMagnitude_of_high {a : BitPattern32} (h : 113 ≤ (bexp32 a).toNat) :
    narrowMagnitude a = min 0x7C00 (((bexp32 a).toNat - 112) * 2 ^ 10 + (sig32 a).toNat / 2 ^ 13 +
      if (sig32 a).toNat % 2 ^ 13 > 0x1000 ∨
        ((sig32 a).toNat % 2 ^ 13 = 0x1000 ∧ (sig32 a).toNat / 2 ^ 13 % 2 = 1) then 1 else 0) := by
  have hhigh : -14 ≤ unbiased (bexp32 a).toNat 127 := by unfold unbiased; omega
  have hodd : (0x400 + (sig32 a).toNat / 2 ^ 13) % 2 = (sig32 a).toNat / 2 ^ 13 % 2 := by omega
  have hfield : (unbiased (bexp32 a).toNat 127 + 14).toNat * 2 ^ 10 + (0x400 + (sig32 a).toNat / 2 ^ 13) =
      ((bexp32 a).toNat - 112) * 2 ^ 10 + (sig32 a).toNat / 2 ^ 13 := by unfold unbiased; omega
  rw [narrowMagnitude, align_of_high hhigh, Candidate.magnitude]
  simp only [roundUp_iff, candidate_main (sig32 a).isLt, candidate_remainder, candidate_sticky, candidate_e,
    Bool.false_eq_true, or_false]
  rw [hodd, hfield]

/-- The threshold of saturation: half a unit above the largest finite magnitude, where the tie goes up because that
magnitude is odd (43_converter.md R62, R69). -/
theorem narrowMagnitude_eq_infinity_iff (a : BitPattern32) :
    narrowMagnitude a = 0x7C00 ↔ 0x477FF000 ≤ a.toNat % 2 ^ 31 := by
  have hsig : (sig32 a).toNat < 2 ^ 23 := (sig32 a).isLt
  rw [toNat_mod_eq_bexp32_sig32]
  obtain hlow | hhigh := Nat.lt_or_ge (bexp32 a).toNat 113
  · have hsmall := narrowMagnitude_le_of_low hlow
    omega
  · rw [narrowMagnitude_of_high hhigh]
    split_ifs <;> omega

/-- R62's three kinds of input are the magnitudes from the threshold on; a pattern of the all-one field is one of them only
when it is an infinity. -/
theorem saturationKinds_iff {a : BitPattern32} (h : class32 a ≠ .nan) :
    ((bexp32 a).toNat ≥ 143 ∧ class32 a = .normal) ∨
      ((bexp32 a).toNat = 142 ∧ (sig32 a).toNat ≥ 0x7FF000) ∨ class32 a = .infinity ↔
    0x477FF000 ≤ a.toNat % 2 ^ 31 := by
  have hbexp : (bexp32 a).toNat < 2 ^ 8 := (bexp32 a).isLt
  have hsig : (sig32 a).toNat < 2 ^ 23 := (sig32 a).isLt
  rw [Ne, class32_eq_iff_classRow] at h
  rw [toNat_mod_eq_bexp32_sig32, class32_eq_iff_classRow, class32_eq_iff_classRow]
  simp only [ClassRow] at h ⊢
  omega

/-- Just above the largest finite magnitude, less than half a unit is discarded and nothing saturates. -/
theorem narrowMagnitude_of_just_above_largest {a : BitPattern32} (h : a.toNat % 2 ^ 31 = 0x477FE001) :
    narrowMagnitude a = 0x7BFF := by
  have hsig_lt : (sig32 a).toNat < 2 ^ 23 := (sig32 a).isLt
  rw [toNat_mod_eq_bexp32_sig32] at h
  have hbexp : (bexp32 a).toNat = 142 := by omega
  have hsig : (sig32 a).toNat = 0x7FE001 := by omega
  rw [narrowMagnitude_of_high (by omega), hbexp, hsig]
  decide

end Sys2Proof.Machine

namespace Sys2Proof

open Machine

/-- Settles O36: away from the NaNs the result is the sign above the rounded magnitude, and that magnitude is the
infinity's exactly from the threshold on. -/
theorem narrowSaturatesToSignedInfinity : Obligations.NarrowSaturatesToSignedInfinity := by
  unfold Obligations.NarrowSaturatesToSignedInfinity
  intro a hnan
  have hresult := narrow_toNat_of_not_nan hnan
  have hle := narrowMagnitude_le a
  have hmod : (narrow a).toNat % 2 ^ 15 = narrowMagnitude a := by omega
  refine ⟨?_, ?_, fun h => hmod.trans (narrowMagnitude_of_just_above_largest h)⟩
  · rw [saturationKinds_iff hnan, ← narrowMagnitude_eq_infinity_iff, hresult,
      assemble16_eq_add (by decide) (by decide)]
    omega
  · rw [class16_eq_infinity_iff, hmod, narrowMagnitude_eq_infinity_iff]

end Sys2Proof
end

section
/-! The natural rendering by class (44_formatter.md R71, R72), and where a layout with digits has its mantissa characters
(44_formatter.md R73). What is said of a Decomposed Value of any widths holds of both formats. -/

namespace Sys2Proof.Machine

theorem signChar_eq (sign : BitVec 1) : signChar sign = if sign.toNat = 0 then '+' else '-' := by
  rw [signChar]
  exact if_congr BitVec.toNat_inj.symm rfl rfl

theorem signChar_sign32 (a : BitPattern32) : signChar (sign32 a) = if slice a.toNat 31 31 = 0 then '+' else '-' := by
  rw [signChar_eq, sign32_toNat_eq_slice]

theorem signChar_sign16 (h : BitPattern16) : signChar (sign16 h) = if slice h.toNat 15 15 = 0 then '+' else '-' := by
  rw [signChar_eq, sign16_toNat_eq_slice]

/-- The numeral of every 32-bit Subnormal. -/
theorem dec_emin32 : dec Config.emin32 = ['-', '1', '2', '6'] := by decide

/-- The numeral of every 16-bit Subnormal. -/
theorem dec_emin16 : dec Config.emin16 = ['-', '1', '4'] := by decide

theorem natural32_of_class {a : BitPattern32} {c : FpClass} (hc : class32 a = c) :
    natural32 a = naturalText c (decompose32 a) Config.emin32 := by
  rw [natural32, hc]

theorem natural16_of_class {h : BitPattern16} {c : FpClass} (hc : class16 h = c) :
    natural16 h = naturalText c (decompose16 h) Config.emin16 := by
  rw [natural16, hc]

section
variable {expWidth sigWidth : Nat} (d : Decomposed expWidth sigWidth) (minExp : Int)

theorem naturalText_infinity : naturalText .infinity d minExp = [signChar d.sign, 'I', 'N', 'F'] := rfl

theorem naturalText_nan : naturalText .nan d minExp = ['N', 'a', 'N'] := rfl

theorem naturalText_zero : naturalText .zero d minExp = [signChar d.sign, '0'] := rfl

theorem naturalText_normal :
    naturalText .normal d minExp = digitsText d.sign '1' sigWidth d.sig.toNat d.uexp := rfl

theorem naturalText_subnormal :
    naturalText .subnormal d minExp = digitsText d.sign '0' sigWidth d.sig.toNat minExp := rfl

end

/-- The mantissa characters start after the sign, the leading digit and the point. -/
theorem digitsText_get_mantissa (sign : BitVec 1) (lead : Char) (sig : Nat) (x : Int) {w k : Nat} (hk : k < w) :
    (digitsText sign lead w sig x)[3 + k]? = some (if sig.testBit (w - 1 - k) then '1' else '0') := by
  have hin : k < (binText w sig).length := by rwa [binText_length]
  rw [digitsText, List.append_assoc, List.append_assoc, List.getElem?_append_right (Nat.le_add_right 3 k),
    List.length_cons, List.length_cons, List.length_singleton, Nat.add_sub_cancel_left,
    List.getElem?_append_left hin, binText_get w sig k hk]

/-- The space follows the last of the `w` mantissa characters. -/
theorem digitsText_get_space (sign : BitVec 1) (lead : Char) (w sig : Nat) (x : Int) :
    (digitsText sign lead w sig x)[3 + w]? = some ' ' := by
  have hfront : ([signChar sign, lead, '.'] ++ binText w sig).length = 3 + w := by
    rw [List.length_append, binText_length, List.length_cons, List.length_cons, List.length_singleton]
  rw [digitsText, List.append_assoc, List.getElem?_append_right (Nat.le_of_eq hfront), hfront, Nat.sub_self]
  rfl

/-- In the two classes with digits, the mantissa characters are the significand's bits from the top one down, whatever
leads and whatever exponent follows. -/
theorem naturalText_get_mantissa {expWidth sigWidth : Nat} {c : FpClass} (hc : c = .normal ∨ c = .subnormal)
    (d : Decomposed expWidth sigWidth) (minExp : Int) {k : Nat} (hk : k < sigWidth) :
    (naturalText c d minExp)[3 + k]? = some (if d.sig.getLsbD (sigWidth - 1 - k) then '1' else '0') ∧
      (naturalText c d minExp)[3 + sigWidth]? = some ' ' := by
  rw [← BitVec.testBit_toNat]
  obtain rfl | rfl := hc
  · rw [naturalText_normal]
    exact ⟨digitsText_get_mantissa _ _ _ _ hk, digitsText_get_space ..⟩
  · rw [naturalText_subnormal]
    exact ⟨digitsText_get_mantissa _ _ _ _ hk, digitsText_get_space ..⟩

/-- The significand holds the pattern's low bits at their own places. -/
theorem getLsbD_sig32 (a : BitPattern32) {i : Nat} (hi : i < 23) : (sig32 a).getLsbD i = a.getLsbD i := by
  rw [sig32, BitVec.getLsbD_extractLsb', decide_eq_true hi, Bool.true_and, Nat.zero_add]

theorem getLsbD_sig16 (h : BitPattern16) {i : Nat} (hi : i < 10) : (sig16 h).getLsbD i = h.getLsbD i := by
  rw [sig16, BitVec.getLsbD_extractLsb', decide_eq_true hi, Bool.true_and, Nat.zero_add]

end Sys2Proof.Machine

namespace Sys2Proof

open Machine

/-- Settles O48: the rendering is that of the decomposed pattern's class, and the fields in it are the slices. -/
theorem naturalRenderingFollowsTheClass : Obligations.NaturalRenderingFollowsTheClass := by
  unfold Obligations.NaturalRenderingFollowsTheClass
  constructor
  · rintro a _ rfl
    rw [← signChar_sign32, ← sig32_toNat_eq_slice, ← bexp32_toNat_eq_slice, ← dec_emin32]
    exact ⟨fun hc => (natural32_of_class hc).trans (naturalText_infinity ..),
      fun hc => (natural32_of_class hc).trans (naturalText_nan ..),
      fun hc => (natural32_of_class hc).trans (naturalText_zero ..),
      fun hc => (natural32_of_class hc).trans (naturalText_normal ..),
      fun hc => (natural32_of_class hc).trans (naturalText_subnormal ..)⟩
  · rintro h _ rfl
    rw [← signChar_sign16, ← sig16_toNat_eq_slice, ← bexp16_toNat_eq_slice, ← dec_emin16]
    exact ⟨fun hc => (natural16_of_class hc).trans (naturalText_infinity ..),
      fun hc => (natural16_of_class hc).trans (naturalText_nan ..),
      fun hc => (natural16_of_class hc).trans (naturalText_zero ..),
      fun hc => (natural16_of_class hc).trans (naturalText_normal ..),
      fun hc => (natural16_of_class hc).trans (naturalText_subnormal ..)⟩

/-- Settles O49: the mantissa characters are the bits of the significand, and those are the pattern's low bits. -/
theorem mantissaCharactersAreTheBits : Obligations.MantissaCharactersAreTheBits := by
  unfold Obligations.MantissaCharactersAreTheBits
  constructor
  · intro a k hc hk
    rw [natural32, ← getLsbD_sig32 a (by omega)]
    exact naturalText_get_mantissa hc (decompose32 a) Config.emin32 hk
  · intro h k hc hk
    rw [natural16, ← getLsbD_sig16 h (by omega)]
    exact naturalText_get_mantissa hc (decompose16 h) Config.emin16 hk

end Sys2Proof
end

section
/-! No exception is raised, for any input (60_exceptions.md R80). -/

namespace Sys2Proof

open Machine

/-- Settles O8: every operation only produces its response, which is a next state, and no constructor builds a fault. -/
theorem noOperationRaisesAnException : Obligations.NoOperationRaisesAnException := by
  unfold Obligations.NoOperationRaisesAnException
  constructor
  · intro i s
    exact ⟨i.response, (exec_eq_respond i s).trans (respond_next_iff.mpr rfl)⟩
  · exact fun fault => nomatch fault

end Sys2Proof
end

section
/-! Decoding and encoding (30_encoding.md R33 to R37): what each part of a request becomes on the way through an
instruction and back. The encoder writes the operand word with its ignored bits cleared, so two requests that differ at
most in what is ignored are the same instruction. -/

namespace Sys2Proof

/-- All eight codes (30_encoding.md R34). -/
theorem opcode_cases (op : BitVec 3) :
    op = 0#3 ∨ op = 1#3 ∨ op = 2#3 ∨ op = 3#3 ∨ op = 4#3 ∨ op = 5#3 ∨ op = 6#3 ∨ op = 7#3 := by
  revert op
  decide

/-- The low `k` bits under zeros are the word with the bits above them masked out. -/
theorem zero_append_low_bits (n k : Nat) (a mask : BitVec (n + k)) (hmask : mask.toNat = 2 ^ k - 1) :
    0#n ++ a.extractLsb' 0 k = a &&& mask := by
  apply BitVec.eq_of_toNat_eq
  rw [BitVec.toNat_and, hmask, Nat.and_two_pow_sub_one_eq_mod]
  simp

/-- The three operand fields of `ROUND` are the low 25 bits of the operand word, in order (30_encoding.md R35). -/
theorem roundFields_append (a : BitVec 32) :
    BitVec.ofBool (operandSticky a) ++ (operandRemainder a ++ operandMain a) = a.extractLsb' 0 25 := by
  have hsticky : BitVec.ofBool (operandSticky a) = a.extractLsb' 24 1 := by
    have hbit : ∀ b : BitVec 1, BitVec.ofBool (b == 1#1) = b := by decide
    exact hbit _
  rw [hsticky, operandRemainder, operandMain, BitVec.extractLsb'_append_extractLsb'_eq_extractLsb' (by rfl)]
  exact BitVec.extractLsb'_append_extractLsb'_eq_extractLsb' (by rfl)

@[simp] theorem opcode_decodeOp (op : BitVec 3) (a : BitVec 32) (n : Nat) : opcode (decodeOp op a n) = op := by
  obtain rfl | rfl | rfl | rfl | rfl | rfl | rfl | rfl := opcode_cases op <;> rfl

/-- Decoding and encoding again clears the ignored operand bits and no other. -/
@[simp] theorem operandWord_decodeOp (op : BitVec 3) (a : BitVec 32) (n : Nat) :
    operandWord (decodeOp op a n) = a &&& ~~~ignoredMask op := by
  have hall : a = a &&& ~~~0#32 := BitVec.and_allOnes.symm
  have hlow16 : 0#16 ++ operandPattern16 a = a &&& ~~~0xFFFF0000#32 := zero_append_low_bits 16 16 a _ (by decide)
  have hlow25 : 0#7 ++ (BitVec.ofBool (operandSticky a) ++ (operandRemainder a ++ operandMain a)) =
      a &&& ~~~0xFE000000#32 := by
    rw [roundFields_append]
    exact zero_append_low_bits 7 25 a _ (by decide)
  obtain rfl | rfl | rfl | rfl | rfl | rfl | rfl | rfl := opcode_cases op
  · exact hall
  · exact hlow16
  · exact hall
  · exact hlow16
  · exact hlow25
  · exact hall
  · exact hall
  · exact hlow16

@[simp] theorem operandMaxLength_decodeOp (op : BitVec 3) (a : BitVec 32) (n : Nat) :
    operandMaxLength (decodeOp op a n) = if isFormatter op then n else 0 := by
  obtain rfl | rfl | rfl | rfl | rfl | rfl | rfl | rfl := opcode_cases op <;> rfl

/-- An instruction is what its code selects on its operand word. -/
theorem decode_encode (i : Instr) : decode (encode i) = i := by
  rw [encode, decode_requestWord]
  cases i with
  | decomp32 a => rfl
  | decomp16 h => exact congrArg Instr.decomp16 (operandPattern16_append 0#16 h)
  | class32 a => rfl
  | class16 h => exact congrArg Instr.class16 (operandPattern16_append 0#16 h)
  | round main remainder sticky =>
    show Instr.round (operandMain _) (operandRemainder _) (operandSticky _) = _
    rw [operandMain_operandWord, operandRemainder_operandWord, operandSticky_operandWord]
  | narrow a => rfl
  | decode32 a n => rfl
  | decode16 h n => exact congrArg (Instr.decode16 · n) (operandPattern16_append 0#16 h)

/-- The request that comes back has everything cleared that the operation ignores (log 6). -/
theorem encode_decode (r : Request) :
    encode (decode r) = ⟨requestWord r.word.op (r.word.operand &&& ~~~ignoredMask r.word.op),
      if isFormatter r.word.op then r.maxLength else 0⟩ := by
  rw [encode, decode, opcode_decodeOp, operandWord_decodeOp, operandMaxLength_decodeOp]

theorem and_not_eq_self_iff (a mask : BitVec 32) : a &&& ~~~mask = a ↔ a &&& mask = 0#32 := by
  constructor
  · intro h
    rw [← h, BitVec.and_assoc, BitVec.and_comm (~~~mask), BitVec.and_not_self]
    exact BitVec.and_zero
  · intro h
    have hsplit : a &&& (mask ||| ~~~mask) = a := by rw [BitVec.or_not_self, BitVec.and_allOnes]
    rwa [BitVec.and_or_distrib_left, h, BitVec.zero_or] at hsplit

theorem canonical_iff (r : Request) : r.canonical = true ↔
    r.word.operand &&& ignoredMask r.word.op = 0#32 ∧ (isFormatter r.word.op = true ∨ r.maxLength = 0) := by
  simp [Request.canonical]

/-- A request comes back whole exactly if nothing in it was cleared. -/
theorem encode_decode_eq_self_iff (r : Request) : encode (decode r) = r ↔ r.canonical = true := by
  obtain ⟨w, n⟩ := r
  have hword : requestWord w.op (w.operand &&& ~~~ignoredMask w.op) = w ↔
      w.operand &&& ignoredMask w.op = 0#32 := by
    rw [← and_not_eq_self_iff]
    constructor
    · intro h
      simpa using congrArg RequestWord.operand h
    · intro h
      rw [h, requestWord_op_operand]
  have hlength : (if isFormatter w.op then n else 0) = n ↔ isFormatter w.op = true ∨ n = 0 := by
    cases isFormatter w.op <;> simp [eq_comm]
  rw [encode_decode, canonical_iff, Request.mk.injEq, hword, hlength]

theorem encode_canonical (i : Instr) : (encode i).canonical = true := by
  rw [← encode_decode_eq_self_iff, decode_encode]

/-- Requests that agree on what is not ignored are encoded the same, so they are the same instruction. -/
theorem decode_eq_of_agreesWith {r q : Request} (h : r.agreesWith q = true) : decode r = decode q := by
  simp only [Request.agreesWith, Bool.and_eq_true, Bool.or_eq_true, Bool.not_eq_true', beq_iff_eq] at h
  obtain ⟨⟨hop, hoperand⟩, hlength⟩ := h
  have hbound : (if isFormatter r.word.op then r.maxLength else 0) =
    if isFormatter r.word.op then q.maxLength else 0 := by
    obtain hno | heq := hlength
    · rw [hno]; rfl
    · rw [heq]
  have hencode : encode (decode r) = encode (decode q) := by
    rw [encode_decode, encode_decode, ← hop, hoperand, hbound]
  rw [← decode_encode (decode r), hencode, decode_encode]

/-! The parts of an operand word as slices (30_encoding.md R34, R35). -/

open Machine

theorem operandPattern16_toNat (a : BitVec 32) : (operandPattern16 a).toNat = slice a.toNat 15 0 :=
  toNat_extractLsb'_eq_slice a 0 15

theorem operandMain_toNat (a : BitVec 32) : (operandMain a).toNat = slice a.toNat 10 0 :=
  toNat_extractLsb'_eq_slice a 0 10

theorem operandRemainder_toNat (a : BitVec 32) : (operandRemainder a).toNat = slice a.toNat 23 11 :=
  toNat_extractLsb'_eq_slice a 11 12

theorem operandSticky_eq (a : BitVec 32) : operandSticky a = decide (slice a.toNat 24 24 = 1) := by
  rw [← toNat_extractLsb'_eq_slice a 24 0]
  exact decide_eq_decide.mpr BitVec.toNat_inj.symm

theorem operandPattern16_eq_ofNat (a : BitVec 32) : operandPattern16 a = BitVec.ofNat 16 (slice a.toNat 15 0) := by
  rw [← operandPattern16_toNat, BitVec.ofNat_toNat, BitVec.setWidth_eq]

/-- The fields of `ROUND`'s operand word do not overlap, so packing them is a sum (30_encoding.md R35). -/
theorem packRound_eq_add {main remainder : Nat} (hmain : main < 2 ^ 11) (hremainder : remainder < 2 ^ 13)
    (sticky : Nat) :
    packRound main remainder sticky = sticky * 2 ^ 24 + remainder * 2 ^ 11 + main := by
  have hhigh : (sticky <<< 24) ||| (remainder <<< 11) = (sticky * 2 ^ 13 + remainder) <<< 11 := by
    rw [← Nat.shiftLeft_add_eq_or_of_lt (by rw [Nat.shiftLeft_eq]; omega)]
    simp only [Nat.shiftLeft_eq]
    omega
  rw [packRound, hhigh, ← Nat.shiftLeft_add_eq_or_of_lt hmain, Nat.shiftLeft_eq]
  omega

/-- A packed operand word with anything above bit 24 is the three inputs again (30_encoding.md R35). -/
theorem decodeOp_round_packed (main : BitVec 11) (remainder : BitVec 13) (sticky : Bool) (high n : Nat) :
    decodeOp 4#3 (BitVec.ofNat 32 (packRound main.toNat remainder.toNat sticky.toNat + high * 2 ^ 25)) n =
      .round main remainder sticky := by
  have hmain : main.toNat < 2 ^ 11 := main.isLt
  have hremainder : remainder.toNat < 2 ^ 13 := remainder.isLt
  have hsticky : sticky.toNat < 2 := Bool.toNat_lt sticky
  rw [packRound_eq_add hmain hremainder]
  show Instr.round _ _ _ = _
  congr 1
  · apply BitVec.eq_of_toNat_eq
    rw [operandMain_toNat, BitVec.toNat_ofNat, slice]
    omega
  · apply BitVec.eq_of_toNat_eq
    rw [operandRemainder_toNat, BitVec.toNat_ofNat, slice]
    omega
  · rw [operandSticky_eq, BitVec.toNat_ofNat, slice]
    have hbit : ∀ x : Nat, x = sticky.toNat → decide (x = 1) = sticky := by
      rintro _ rfl
      cases sticky <;> rfl
    exact hbit _ (by omega)

/-- Under the mask of the opcode table a word is its operation code (30_encoding.md section B.5). -/
theorem requestWord_and_tableMask (op : BitVec 3) (a : BitVec 32) :
    requestWord op a &&& 0x700000000#35 = requestWord op 0#32 := by
  have hmask : 0x700000000#35 = BitVec.allOnes 3 ++ 0#32 := by decide
  rw [requestWord, hmask, BitVec.and_append, BitVec.and_allOnes, BitVec.and_zero]
  rfl

/-- Whether a row covers a word depends on the word's code alone. -/
theorem covers_requestWord {row : OpcodeRow} (hrow : row.mask = 0x700000000#35) (op : BitVec 3) (a : BitVec 32) :
    row.covers (requestWord op a) = (requestWord op 0#32 == row.pattern) := by
  rw [OpcodeRow.covers, hrow, requestWord_and_tableMask]

/-- The rows that cover a word of code `op`, by their mnemonics. -/
theorem opcodeTable_covering (op : BitVec 3) (a : BitVec 32) (n : Nat) :
    (opcodeTable.filter fun row => row.covers (requestWord op a)).map OpcodeRow.mnemonic =
      [mnemonic (decodeOp op a n)] := by
  have hcovers : opcodeTable.filter (fun row => row.covers (requestWord op a)) =
      opcodeTable.filter (fun row => requestWord op 0#32 == row.pattern) := by
    apply List.filter_congr
    intro row hrow
    have hmask : ∀ row ∈ opcodeTable, row.mask = 0x700000000#35 := by decide
    exact covers_requestWord (hmask row hrow) op a
  rw [hcovers]
  obtain rfl | rfl | rfl | rfl | rfl | rfl | rfl | rfl := opcode_cases op <;> rfl

/-- Settles O1: decoding undoes encoding because each operand field is read where it was written; the way round through
an instruction clears what is ignored, and clears nothing exactly in a canonical request. -/
theorem decodeAndEncodeAreInverse : Obligations.DecodeAndEncodeAreInverse := by
  unfold Obligations.DecodeAndEncodeAreInverse
  exact ⟨fun i => ⟨decode_encode i, encode_canonical i⟩, encode_decode_eq_self_iff⟩

/-- Settles O2: the code picks the arm, and the operand fields are the slices. -/
theorem operationCodesSelectOperations : Obligations.OperationCodesSelectOperations := by
  unfold Obligations.OperationCodesSelectOperations
  intro a n
  have hround : Instr.round (operandMain a) (operandRemainder a) (operandSticky a) =
      .round (BitVec.ofNat 11 (slice a.toNat 10 0)) (BitVec.ofNat 13 (slice a.toNat 23 11))
        (decide (slice a.toNat 24 24 = 1)) := by
    rw [← operandMain_toNat, ← operandRemainder_toNat, ← operandSticky_eq]
    simp only [BitVec.ofNat_toNat, BitVec.setWidth_eq]
  simp only [decode_requestWord, ← operandPattern16_eq_ofNat, ← hround]
  exact ⟨rfl, rfl, rfl, rfl, rfl, rfl, rfl, rfl⟩

/-- Settles O3: every row has the same mask, under which a word is its operation code. -/
theorem oneOpcodeTableRowCoversEachWord : Obligations.OneOpcodeTableRowCoversEachWord := by
  unfold Obligations.OneOpcodeTableRowCoversEachWord
  intro w n
  have hrow := opcodeTable_covering w.op w.operand n
  rwa [requestWord_op_operand] at hrow

/-- Settles O7: fixed words, evaluated. -/
theorem writtenOutWordsDecode : Obligations.WrittenOutWordsDecode := by
  unfold Obligations.WrittenOutWordsDecode
  decide

end Sys2Proof
end

section
/-! What a host reads from the block (10_state.md R10, 20_memory.md section 6): a request's response is that of the
decoded instruction in every state, in every sequence and on every block. -/

namespace Sys2Proof

open Machine

/-- The state after the block has answered `r`: nothing of an earlier evaluation is left in it. -/
def answered (r : Request) : State := ⟨r, some (decode r).response⟩

@[simp] theorem step_present (s : State) (r : Request) : step (s.present r) = .next (answered r) :=
  step_eq_respond (s.present r)

theorem step_next_iff {s t : State} : step s = .next t ↔ t = answered s.request := by
  rw [step_eq_respond, respond_next_iff]
  rfl

@[simp] theorem evaluate_eq (s : State) (r : Request) : evaluate s r = some (decode r).response := by
  rw [evaluate, step_present]
  rfl

theorem serve_eq (s : State) (rs : List Request) : serve s rs = rs.map fun r => (decode r).response := by
  induction rs generalizing s with
  | nil => rfl
  | cons r rs ih => simp [serve, answered, ih]

/-- One evaluation replaces one block of the list; `List.set` changes nothing where there is no such block (log 19). -/
theorem evaluateAt_eq (k : Nat) (r : Request) (blocks : List State) :
    evaluateAt k r blocks = .next (blocks.set k (answered r)) := by
  unfold evaluateAt
  split
  next hnone => rw [List.set_eq_of_length_le (List.getElem?_eq_none_iff.mp hnone)]
  next => rw [step_present]

theorem evaluateAll_cons (k : Nat) (r : Request) (rest : List (Nat × Request)) (blocks : List State) :
    evaluateAll ((k, r) :: rest) blocks = evaluateAll rest (blocks.set k (answered r)) := by
  rw [evaluateAll, evaluateAt_eq]

/-- The last entry of a schedule for block `k`, if there is one. -/
def lastFor (k : Nat) (schedule : List (Nat × Request)) : Option (Nat × Request) :=
  (schedule.filter fun e => e.1 == k).getLast?

theorem lastFor_cons_same (k : Nat) (r : Request) (rest : List (Nat × Request)) :
    lastFor k ((k, r) :: rest) = some ((lastFor k rest).getD (k, r)) := by
  rw [lastFor, List.filter_cons_of_pos (by simp), List.getLast?_cons]
  rfl

theorem lastFor_cons_other {k j : Nat} (h : j ≠ k) (r : Request) (rest : List (Nat × Request)) :
    lastFor k ((j, r) :: rest) = lastFor k rest := by
  rw [lastFor, List.filter_cons_of_neg (by simpa using h)]
  rfl

/-- What a block holds at the end: the answer to the last request scheduled on it, or what it held before. -/
theorem evaluateAll_next (schedule : List (Nat × Request)) (blocks : List State) :
    ∃ after, evaluateAll schedule blocks = .next after ∧ after.length = blocks.length ∧
      ∀ k, k < blocks.length → after[k]? = ((lastFor k schedule).map fun e => answered e.2).or blocks[k]? := by
  induction schedule generalizing blocks with
  | nil => exact ⟨blocks, rfl, rfl, fun k _ => rfl⟩
  | cons e rest ih =>
    obtain ⟨j, r⟩ := e
    obtain ⟨after, hrun, hlength, hget⟩ := ih (blocks.set j (answered r))
    rw [List.length_set] at hlength hget
    refine ⟨after, (evaluateAll_cons j r rest blocks).trans hrun, hlength, fun k hk => ?_⟩
    rw [hget k hk]
    by_cases hjk : j = k
    · subst hjk
      rw [lastFor_cons_same, List.getElem?_set_self hk]
      cases lastFor j rest <;> rfl
    · rw [lastFor_cons_other hjk, List.getElem?_set_ne hjk]

/-- Settles O4: the two requests are the same instruction. -/
theorem ignoredBitsDoNotChangeTheResponse : Obligations.IgnoredBitsDoNotChangeTheResponse := by
  unfold Obligations.IgnoredBitsDoNotChangeTheResponse
  intro s r q hagree
  rw [evaluate_eq, evaluate_eq, decode_eq_of_agreesWith hagree]

/-- Settles O6: a step is by definition the decoded instruction's execution, and decoding undoes encoding. -/
theorem stepRunsTheDecodedInstruction : Obligations.StepRunsTheDecodedInstruction := by
  unfold Obligations.StepRunsTheDecodedInstruction
  refine ⟨fun s => ⟨?_, rfl⟩, fun s i => ?_⟩
  · cases decode s.request <;> rfl
  · rw [step, State.present_request, decode_encode]

/-- Settles O9: the next state is the old one with the operation's response in it. -/
theorem execLeavesTheRequestAndGivesItsOwnRecord : Obligations.ExecLeavesTheRequestAndGivesItsOwnRecord := by
  unfold Obligations.ExecLeavesTheRequestAndGivesItsOwnRecord
  intro i s t h
  rw [exec_eq_respond] at h
  have hresponse := respond_response h
  refine ⟨respond_request h, ?_⟩
  cases i with
  | round main remainder sticky => exact ⟨_, _, hresponse⟩
  | _ => exact ⟨_, hresponse⟩

/-- Settles O11: no state takes part in a response. -/
theorem firstEvaluationIsAsGoodAsAnyLater : Obligations.FirstEvaluationIsAsGoodAsAnyLater := by
  unfold Obligations.FirstEvaluationIsAsGoodAsAnyLater
  exact ⟨State.reset_response, fun s r => (evaluate_eq s r).trans (evaluate_eq State.reset r).symm⟩

/-- Settles O12: the state after a step is the answer to its own request. -/
theorem evaluationIsIdempotent : Obligations.EvaluationIsIdempotent := by
  unfold Obligations.EvaluationIsIdempotent
  intro s t h
  rw [step_next_iff] at h ⊢
  subst h
  rfl

/-- Settles O13: by induction on the requests, no response depends on the state that the one before it left. -/
theorem requestsInSequenceAreAnsweredAlone : Obligations.RequestsInSequenceAreAnsweredAlone := by
  unfold Obligations.RequestsInSequenceAreAnsweredAlone
  intro s rs
  rw [serve_eq, List.map_map]
  exact List.map_congr_left fun r _ => (evaluate_eq State.reset r).symm

/-- Settles O14: by induction on the schedule, each entry replaces one block by its answer. -/
theorem interleavingsOnInstancesDoNotInteract : Obligations.InterleavingsOnInstancesDoNotInteract := by
  unfold Obligations.InterleavingsOnInstancesDoNotInteract
  intro schedule blocks
  obtain ⟨after, hrun, hlength, hget⟩ := evaluateAll_next schedule blocks
  refine ⟨after, hrun, hlength, fun k hk => ?_⟩
  rw [hget k hk, lastFor]
  split
  next hnone => rw [hnone]; rfl
  next e hsome => rw [hsome, evaluate_eq]; rfl

/-- Settles O17: the refusal looks at the operation code alone. -/
theorem coreOnlyBlockRefusesTheFormatterByName : Obligations.CoreOnlyBlockRefusesTheFormatterByName := by
  unfold Obligations.CoreOnlyBlockRefusesTheFormatterByName
  intro s a n
  have hstep : ∀ op, stepCoreOnly (s.present ⟨requestWord op a, n⟩) =
      execCoreOnly (decodeOp op a n) (s.present ⟨requestWord op a, n⟩) := by
    intro op
    rw [stepCoreOnly, State.present_request, decode_requestWord]
  refine ⟨hstep 6#3, hstep 7#3, fun op hop => ?_⟩
  have hcore : isFormatter op = false := by
    revert op
    decide
  rw [hstep, execCoreOnly, opcode_decodeOp, hcore, step, State.present_request, decode_requestWord]
  rfl

end Sys2Proof
end

section
/-! Rounding an exact integer to a multiple of a unit, to nearest and ties to even (00_scope.md section 10), with no
mantissa or remainder in sight: two bounds and a tie rule, from which nearness and monotonicity follow. The rounding
logic and the converter are tied to it below. -/

namespace Sys2Proof.Machine

/-- `v / u` rounded to the nearest integer, a tie going to the even one; `roundTiesEven_of_fields` ties it to
`ROUND`. -/
def roundTiesEven (v u : Nat) : Nat :=
  v / u + if u < 2 * (v % u) ∨ (2 * (v % u) = u ∧ v / u % 2 = 1) then 1 else 0

/-- The multiple of the unit that results is within half a unit, and in a tie it is an even one. -/
theorem roundTiesEven_spec (v : Nat) {u : Nat} (hu : 0 < u) :
    2 * (roundTiesEven v u * u) ≤ 2 * v + u ∧ 2 * v ≤ 2 * (roundTiesEven v u * u) + u ∧
      (2 * (roundTiesEven v u * u) = 2 * v + u ∨ 2 * v = 2 * (roundTiesEven v u * u) + u →
        roundTiesEven v u % 2 = 0) := by
  have hsplit : v / u * u + v % u = v := Nat.div_add_mod' v u
  have hrest : v % u < u := Nat.mod_lt v hu
  unfold roundTiesEven
  split_ifs with hup
  · rw [Nat.add_one_mul (v / u)]
    omega
  · rw [Nat.add_zero]
    omega

theorem roundTiesEven_mono {v w u : Nat} (hu : 0 < u) (h : v ≤ w) : roundTiesEven v u ≤ roundTiesEven w u := by
  obtain ⟨hv_le, -, -⟩ := roundTiesEven_spec v hu
  obtain ⟨-, hw_le, -⟩ := roundTiesEven_spec w hu
  by_contra hgt
  have hstep : (roundTiesEven w u + 1) * u ≤ roundTiesEven v u * u := Nat.mul_le_mul_right u (by omega)
  rw [Nat.add_one_mul] at hstep
  have heq : v = w := by omega
  rw [heq] at hgt
  exact hgt (Nat.le_refl _)

theorem roundTiesEven_mul_self (n : Nat) {u : Nat} (hu : 0 < u) : roundTiesEven (n * u) u = n := by
  simp [roundTiesEven, hu, Nat.ne_of_lt hu]

theorem roundTiesEven_mul_mul (v u : Nat) {c : Nat} (hc : 0 < c) :
    roundTiesEven (v * c) (u * c) = roundTiesEven v u := by
  have hassoc : 2 * (v % u * c) = 2 * (v % u) * c := (Nat.mul_assoc ..).symm
  simp only [roundTiesEven, Nat.mul_div_mul_right _ _ hc, Nat.mul_mod_mul_right, hassoc, Nat.mul_lt_mul_right hc,
    Nat.mul_right_cancel_iff hc]

/-- No integer is nearer than one that is within half a unit of `v`, unless it lies within the unit; one as near makes a
tie. -/
theorem nearest_of_half_unit {p u v x : Int} (hle : 2 * p ≤ 2 * v + u) (hge : 2 * v ≤ 2 * p + u)
    (hx : x = p ∨ x ≤ p - u ∨ p + u ≤ x) :
    |p - v| ≤ |x - v| ∧ (|p - v| = |x - v| → x ≠ p → 2 * p = 2 * v + u ∨ 2 * v = 2 * p + u) := by
  obtain ⟨hp, _⟩ | ⟨hp, _⟩ := abs_cases (p - v) <;> obtain ⟨hx', _⟩ | ⟨hx', _⟩ := abs_cases (x - v) <;>
    rw [hp, hx'] <;> omega

/-- Two multiples of a unit are equal or at least one unit apart. -/
theorem mul_eq_or_apart (n t u : Int) (hu : 0 < u) : n * u = t * u ∨ n * u ≤ t * u - u ∨ t * u + u ≤ n * u := by
  obtain hlt | heq | hgt := lt_trichotomy n t
  · have hstep : (n + 1) * u ≤ t * u := Int.mul_le_mul_of_nonneg_right hlt hu.le
    rw [Int.add_mul] at hstep
    omega
  · exact .inl (by rw [heq])
  · have hstep : (t + 1) * u ≤ n * u := Int.mul_le_mul_of_nonneg_right hgt hu.le
    rw [Int.add_mul] at hstep
    omega

/-- The rounded multiple is nearest among what is not within a unit of it, and even where something else is as near. -/
theorem roundTiesEven_nearest (v : Nat) {u : Nat} (hu : 0 < u) {x : Int}
    (hx : x = roundTiesEven v u * u ∨ x ≤ roundTiesEven v u * u - u ∨ roundTiesEven v u * u + u ≤ x) :
    |(roundTiesEven v u * u : Int) - v| ≤ |x - v| ∧
      (|(roundTiesEven v u * u : Int) - v| = |x - v| → x ≠ roundTiesEven v u * u → roundTiesEven v u % 2 = 0) := by
  obtain ⟨hle, hge, htie⟩ := roundTiesEven_spec v hu
  zify at hle hge
  obtain ⟨hnear, heven⟩ := nearest_of_half_unit hle hge hx
  refine ⟨hnear, fun heq hne => htie ?_⟩
  zify
  exact heven heq hne

/-- `ROUND`'s inputs as one number in units of 2^-14, `sticky` standing for half a unit of `remainder`: the incremented
candidate is that number rounded (42_rounding.md R51). -/
theorem roundTiesEven_of_fields (main : Nat) {remainder : Nat} (h : remainder ≤ 0x1FFF) (sticky : Bool) :
    roundTiesEven (main * 2 ^ 14 + 2 * remainder + sticky.toNat) (2 ^ 14) =
      main + if roundUp main remainder sticky then 1 else 0 := by
  have hsticky : sticky.toNat < 2 := Bool.toNat_lt sticky
  have hset : sticky = true ↔ sticky.toNat = 1 := by cases sticky <;> decide
  have hmain : (main * 2 ^ 14 + 2 * remainder + sticky.toNat) / 2 ^ 14 = main := by omega
  have hrest : (main * 2 ^ 14 + 2 * remainder + sticky.toNat) % 2 ^ 14 = 2 * remainder + sticky.toNat := by omega
  simp only [roundTiesEven, hmain, hrest, roundUp_iff, hset]
  exact congrArg (main + ·) (if_congr (by omega) rfl rfl)

/-- The two results put together are the incremented candidate: a carry is halved without losing a bit
(42_rounding.md R52). -/
theorem roundMain_value {main : Nat} (h : main ≤ 0x7FF) (remainder : Nat) (sticky : Bool) :
    (roundMain main remainder sticky).1 * 2 ^ (roundMain main remainder sticky).2 =
      main + if roundUp main remainder sticky then 1 else 0 := by
  obtain ⟨up, hup, hcases⟩ := roundMain_cases main remainder sticky
  have hup_le : up ≤ 1 := by split_ifs at hup <;> omega
  rw [← hup]
  obtain ⟨-, hround⟩ | ⟨hcarry, hround⟩ := hcases
  · rw [hround, Nat.pow_zero, Nat.mul_one]
  · rw [hround, Nat.pow_one]
    exact Nat.div_mul_cancel (by omega)

/-- Every pair of results for a candidate of eleven bits (42_rounding.md R54). -/
theorem roundMain_range {main : Nat} (h : main ≤ 0x7FF) (remainder : Nat) (sticky : Bool) :
    (roundMain main remainder sticky).1 ≤ 0x7FF ∧
      ((roundMain main remainder sticky).2 = 0 ∨
        (main = 0x7FF ∧ roundUp main remainder sticky = true ∧ roundMain main remainder sticky = (0x400, 1))) := by
  obtain ⟨up, hup, hcases⟩ := roundMain_cases main remainder sticky
  obtain ⟨hfits, hround⟩ | ⟨hcarry, hround⟩ := hcases
  · rw [hround]
    exact ⟨hfits, .inl rfl⟩
  · split_ifs at hup with hincremented
    · have hmain : main = 0x7FF := by omega
      rw [hround, hmain, hup]
      exact ⟨by decide, .inr ⟨rfl, hmain ▸ hincremented, rfl⟩⟩
    · omega

end Sys2Proof.Machine

namespace Sys2Proof

open Machine

/-- Settles O29: a candidate that overflows eleven bits can only have become 0x800. -/
theorem roundingCarryIsRenormalised : Obligations.RoundingCarryIsRenormalised := by
  unfold Obligations.RoundingCarryIsRenormalised
  intro main remainder sticky t hmain ht
  rw [roundMain_eq_of_incremented ht]
  have ht_le : t ≤ 0x800 := by split_ifs at ht <;> omega
  constructor
  · intro hcarry
    obtain rfl : t = 0x800 := by omega
    exact ⟨rfl, rfl, rfl⟩
  · intro hfits
    rw [if_neg (by omega), if_neg (by omega)]

/-- Settles O30: without a carry the mantissa is the incremented candidate, and a carry comes from 0x7FF alone; the
rows of the table are evaluated. -/
theorem roundRangesAndWorkedCases : Obligations.RoundRangesAndWorkedCases := by
  unfold Obligations.RoundRangesAndWorkedCases
  refine ⟨fun main remainder sticky out inc hmain hround => ?_, by decide⟩
  have hvalue := roundMain_value hmain remainder sticky
  obtain ⟨hout, hcases⟩ := roundMain_range hmain remainder sticky
  rw [hround] at hvalue hout hcases
  have hnext : out * 2 ^ inc = main ∨ out * 2 ^ inc = main + 1 := by
    rw [hvalue]
    split_ifs
    · exact .inr rfl
    · exact .inl rfl
  obtain hinc | ⟨hones, hincremented, hpair⟩ := hcases
  · have hinc : inc = 0 := hinc
    subst hinc
    rw [Nat.pow_zero, Nat.mul_one] at hvalue hnext
    have hno : ¬(main = 0x7FF ∧ roundUp main remainder sticky = true) := by
      rintro ⟨hones, hincremented⟩
      rw [if_pos hincremented] at hvalue
      omega
    exact ⟨hout, by omega, ⟨fun h => absurd h (by decide), fun h => absurd h hno⟩, fun _ => hnext,
      by rwa [Nat.pow_zero, Nat.mul_one]⟩
  · obtain ⟨rfl, rfl⟩ := Prod.mk.inj hpair
    exact ⟨hout, by omega, ⟨fun _ => ⟨hones, hincremented⟩, fun _ => rfl⟩, fun h => absurd h (by decide), hnext⟩

/-- Settles O31: the two results are the exact number rounded to a multiple of 2^14, and every other integer is at least
one such unit away. -/
theorem roundIsToNearestTiesToEven : Obligations.RoundIsToNearestTiesToEven := by
  unfold Obligations.RoundIsToNearestTiesToEven
  intro main remainder sticky exact rounded hmain hremainder hexact hrounded
  have hvalue := roundMain_value hmain remainder sticky
  rw [← roundTiesEven_of_fields main hremainder] at hvalue
  have hexact' : exact = ((main * 2 ^ 14 + 2 * remainder + sticky.toNat : Nat) : Int) := by
    rw [hexact]
    cases sticky <;> simp
  have hrounded' : rounded = (roundTiesEven (main * 2 ^ 14 + 2 * remainder + sticky.toNat) (2 ^ 14) : Int) := by
    rw [hrounded, ← hvalue]
    push_cast
    rfl
  have hnearest : ∀ other : Int, |rounded * 2 ^ 14 - exact| ≤ |other * 2 ^ 14 - exact| ∧
      (|rounded * 2 ^ 14 - exact| = |other * 2 ^ 14 - exact| → other * 2 ^ 14 ≠ rounded * 2 ^ 14 →
        rounded % 2 = 0) := by
    intro other
    rw [hexact', hrounded']
    have h := roundTiesEven_nearest (main * 2 ^ 14 + 2 * remainder + sticky.toNat) (u := 2 ^ 14) (by decide)
      (mul_eq_or_apart other _ (2 ^ 14 : Nat) (by decide))
    zify at h
    exact h
  exact ⟨fun other => (hnearest other).1, fun other heq hne => (hnearest other).2 heq (by omega)⟩

/-- Settles O5: the packed word decodes to its inputs, and both results fit their widths. -/
theorem roundOperandWordPacksItsInputs : Obligations.RoundOperandWordPacksItsInputs := by
  unfold Obligations.RoundOperandWordPacksItsInputs
  intro s main remainder sticky high n
  obtain ⟨hout, hcases⟩ := roundMain_range (Nat.le_of_lt_succ main.isLt) remainder.toNat sticky
  refine ⟨_, (roundMain main.toNat remainder.toNat sticky).2, hout, ?_, ?_, rfl⟩
  · obtain hinc | ⟨-, -, hpair⟩ := hcases
    · omega
    · rw [hpair]
  · rw [evaluate_eq, decode_requestWord, decodeOp_round_packed]
    rfl

end Sys2Proof
end

section
/-! A pattern and its fields determine each other (40_decomposer.md R43). -/

namespace Sys2Proof.Machine

theorem toNat_eq_fields32 (a : BitPattern32) :
    a.toNat = (sign32 a).toNat * 2 ^ 31 + (bexp32 a).toNat * 2 ^ 23 + (sig32 a).toNat := by
  rw [sign32_toNat, bexp32_toNat, sig32_toNat]
  omega

theorem toNat_eq_fields16 (h : BitPattern16) :
    h.toNat = (sign16 h).toNat * 2 ^ 15 + (bexp16 h).toNat * 2 ^ 10 + (sig16 h).toNat := by
  rw [sign16_toNat, bexp16_toNat, sig16_toNat]
  omega

theorem assemble32_fields (a : BitPattern32) :
    assemble32 (sign32 a).toNat (bexp32 a).toNat (sig32 a).toNat = a.toNat := by
  rw [assemble32_eq_add (bexp32 a).isLt (sig32 a).isLt, ← toNat_eq_fields32]

theorem assemble16_fields (h : BitPattern16) :
    assemble16 (sign16 h).toNat (bexp16 h).toNat (sig16 h).toNat = h.toNat := by
  rw [assemble16_eq_add (bexp16 h).isLt (sig16 h).isLt, ← toNat_eq_fields16]

theorem pattern32_ext {a b : BitPattern32} (hsign : sign32 a = sign32 b) (hbexp : bexp32 a = bexp32 b)
    (hsig : sig32 a = sig32 b) : a = b := by
  apply BitVec.eq_of_toNat_eq
  rw [← assemble32_fields a, hsign, hbexp, hsig, assemble32_fields]

theorem pattern16_ext {g h : BitPattern16} (hsign : sign16 g = sign16 h) (hbexp : bexp16 g = bexp16 h)
    (hsig : sig16 g = sig16 h) : g = h := by
  apply BitVec.eq_of_toNat_eq
  rw [← assemble16_fields g, hsign, hbexp, hsig, assemble16_fields]

theorem fields_of_toNat32 {a : BitPattern32} {s : BitVec 1} {e : BitVec 8} {m : BitVec 23}
    (h : a.toNat = s.toNat * 2 ^ 31 + e.toNat * 2 ^ 23 + m.toNat) : sign32 a = s ∧ bexp32 a = e ∧ sig32 a = m := by
  have hs := s.isLt
  have he := e.isLt
  have hm := m.isLt
  refine ⟨BitVec.eq_of_toNat_eq ?_, BitVec.eq_of_toNat_eq ?_, BitVec.eq_of_toNat_eq ?_⟩
  · rw [sign32_toNat]; omega
  · rw [bexp32_toNat]; omega
  · rw [sig32_toNat]; omega

theorem fields_of_toNat16 {h : BitPattern16} {s : BitVec 1} {e : BitVec 5} {m : BitVec 10}
    (hh : h.toNat = s.toNat * 2 ^ 15 + e.toNat * 2 ^ 10 + m.toNat) : sign16 h = s ∧ bexp16 h = e ∧ sig16 h = m := by
  have hs := s.isLt
  have he := e.isLt
  have hm := m.isLt
  refine ⟨BitVec.eq_of_toNat_eq ?_, BitVec.eq_of_toNat_eq ?_, BitVec.eq_of_toNat_eq ?_⟩
  · rw [sign16_toNat]; omega
  · rw [bexp16_toNat]; omega
  · rw [sig16_toNat]; omega

/-- Fields of their widths put together fit the pattern, so none is cut off. -/
theorem fields_ofNat_assemble32 (s : BitVec 1) (e : BitVec 8) (m : BitVec 23) :
    let a := BitVec.ofNat 32 (assemble32 s.toNat e.toNat m.toNat)
    sign32 a = s ∧ bexp32 a = e ∧ sig32 a = m := by
  have hs := s.isLt
  have he := e.isLt
  have hm := m.isLt
  apply fields_of_toNat32
  rw [BitVec.toNat_ofNat, assemble32_eq_add he hm]
  omega

theorem fields_ofNat_assemble16 (s : BitVec 1) (e : BitVec 5) (m : BitVec 10) :
    let h := BitVec.ofNat 16 (assemble16 s.toNat e.toNat m.toNat)
    sign16 h = s ∧ bexp16 h = e ∧ sig16 h = m := by
  have hs := s.isLt
  have he := e.isLt
  have hm := m.isLt
  apply fields_of_toNat16
  rw [BitVec.toNat_ofNat, assemble16_eq_add he hm]
  omega

/-- A 32-bit pattern as its three fields. -/
def fieldsEquiv32 : BitPattern32 ≃ BitVec 1 × BitVec 8 × BitVec 23 where
  toFun a := (sign32 a, bexp32 a, sig32 a)
  invFun f := BitVec.ofNat 32 (assemble32 f.1.toNat f.2.1.toNat f.2.2.toNat)
  left_inv a := BitVec.eq_of_toNat_eq (by
    show (BitVec.ofNat 32 (assemble32 (sign32 a).toNat (bexp32 a).toNat (sig32 a).toNat)).toNat = a.toNat
    rw [assemble32_fields, BitVec.ofNat_toNat, BitVec.setWidth_eq])
  right_inv f := by
    obtain ⟨hs, he, hm⟩ := fields_ofNat_assemble32 f.1 f.2.1 f.2.2
    exact Prod.ext hs (Prod.ext he hm)

/-- A 16-bit pattern as its three fields. -/
def fieldsEquiv16 : BitPattern16 ≃ BitVec 1 × BitVec 5 × BitVec 10 where
  toFun h := (sign16 h, bexp16 h, sig16 h)
  invFun f := BitVec.ofNat 16 (assemble16 f.1.toNat f.2.1.toNat f.2.2.toNat)
  left_inv h := BitVec.eq_of_toNat_eq (by
    show (BitVec.ofNat 16 (assemble16 (sign16 h).toNat (bexp16 h).toNat (sig16 h).toNat)).toNat = h.toNat
    rw [assemble16_fields, BitVec.ofNat_toNat, BitVec.setWidth_eq])
  right_inv f := by
    obtain ⟨hs, he, hm⟩ := fields_ofNat_assemble16 f.1 f.2.1 f.2.2
    exact Prod.ext hs (Prod.ext he hm)

/-- The exponent fields of a class (41_classifier.md R45). -/
def classExps (w : Nat) : FpClass → Finset (BitVec w)
  | .zero | .subnormal => {0#w}
  | .normal => {0#w, BitVec.allOnes w}ᶜ
  | .infinity | .nan => {BitVec.allOnes w}

/-- The significands of a class (41_classifier.md R45). -/
def classSigs (w : Nat) : FpClass → Finset (BitVec w)
  | .zero | .infinity => {0#w}
  | .subnormal | .nan => {0#w}ᶜ
  | .normal => Finset.univ

theorem classRow_iff_mem (c : FpClass) {we wm : Nat} (e : BitVec we) (m : BitVec wm) :
    ClassRow c e.toNat m.toNat (2 ^ we - 1) ↔ e ∈ classExps we c ∧ m ∈ classSigs wm c := by
  have he := e.isLt
  have hzero : e = 0#we ↔ e.toNat = 0 := by rw [← BitVec.toNat_inj]; simp
  have hones : e = BitVec.allOnes we ↔ e.toNat = 2 ^ we - 1 := by rw [← BitVec.toNat_inj, BitVec.toNat_allOnes]
  have hsig : m = 0#wm ↔ m.toNat = 0 := by rw [← BitVec.toNat_inj]; simp
  cases c <;> simp only [ClassRow, classExps, classSigs, Finset.mem_compl, Finset.mem_insert, Finset.mem_singleton,
    Finset.mem_univ, hzero, hones, hsig, and_true, not_or]
  omega

theorem card_bitVec (w : Nat) : Fintype.card (BitVec w) = 2 ^ w := by
  rw [Fintype.card_congr BitVec.equivFin.toEquiv, Fintype.card_fin]

/-- Both signs of each exponent field and significand of the class. -/
theorem card_class {α : Type} {we wm : Nat} (c : FpClass) (class' : α → FpClass)
    (fields : α ≃ BitVec 1 × BitVec we × BitVec wm)
    (hclass : ∀ x, class' x = c ↔ ClassRow c (fields x).2.1.toNat (fields x).2.2.toNat (2 ^ we - 1)) :
    Nat.card { x : α // class' x = c } = 2 * ((classExps we c).card * (classSigs wm c).card) := by
  have hmem : ∀ x, class' x = c ↔ fields x ∈ (Finset.univ ×ˢ classExps we c ×ˢ classSigs wm c) := by
    intro x
    rw [hclass, classRow_iff_mem, Finset.mem_product, Finset.mem_product]
    simp
  rw [Nat.card_congr (fields.subtypeEquiv hmem), Nat.card_eq_finsetCard, Finset.card_product, Finset.card_product,
    Finset.card_univ, card_bitVec, Nat.pow_one]

theorem card_class32 (c : FpClass) :
    Nat.card { a : BitPattern32 // class32 a = c } = 2 * ((classExps 8 c).card * (classSigs 23 c).card) :=
  card_class c class32 fieldsEquiv32 fun a => class32_eq_iff_classRow a c

theorem card_class16 (c : FpClass) :
    Nat.card { h : BitPattern16 // class16 h = c } = 2 * ((classExps 5 c).card * (classSigs 10 c).card) :=
  card_class c class16 fieldsEquiv16 fun h => class16_eq_iff_classRow h c

theorem FpClass.code_le (c : FpClass) : c.code.toNat ≤ 4 := by
  cases c <;> decide

end Sys2Proof.Machine

namespace Sys2Proof

open Machine

/-- Settles O20: `uexp` is the exponent field less the bias, and the table of classes ties the end values of the field
to their classes. -/
theorem unbiasedExponentByClass : Obligations.UnbiasedExponentByClass := by
  unfold Obligations.UnbiasedExponentByClass
  refine ⟨fun a => ?_, fun h => ?_⟩
  · have hbexp : (bexp32 a).toNat < 2 ^ 8 := (bexp32 a).isLt
    simp only [class32_eq_iff_classRow, ClassRow, decompose32, unbiased, Config.bias32]
    omega
  · have hbexp : (bexp16 h).toNat < 2 ^ 5 := (bexp16 h).isLt
    simp only [class16_eq_iff_classRow, ClassRow, decompose16, unbiased, Config.bias16]
    omega

/-- Settles O21: the fields do not overlap, so a pattern is the sum of its shifted fields. -/
theorem decompositionAndReassemblyAreInverse : Obligations.DecompositionAndReassemblyAreInverse := by
  unfold Obligations.DecompositionAndReassemblyAreInverse
  refine ⟨assemble32_fields, assemble16_fields, fun s e m => ?_, fun s e m => ?_⟩
  · obtain ⟨hs, he, hm⟩ := fields_ofNat_assemble32 s e m
    rw [decompose32, hs, he, hm]
    rfl
  · obtain ⟨hs, he, hm⟩ := fields_ofNat_assemble16 s e m
    rw [decompose16, hs, he, hm]
    rfl

/-- Settles O25: patterns are counted by their fields. -/
theorem classCounts : Obligations.ClassCounts := by
  unfold Obligations.ClassCounts
  have hends8 : 0#8 ≠ BitVec.allOnes 8 := by decide
  have hends5 : 0#5 ≠ BitVec.allOnes 5 := by decide
  simp only [card_class32, card_class16, classExps, classSigs, Finset.card_compl, Finset.card_singleton,
    Finset.card_univ, Finset.card_pair hends8, Finset.card_pair hends5, card_bitVec]
  decide

/-- Settles O23: the response is the class of the pattern's fields, which are the slices. -/
theorem classOperationsComplete : Obligations.ClassOperationsComplete := by
  unfold Obligations.ClassOperationsComplete
  constructor
  · intro a s
    rw [exec_class32_next_iff, ← bexp32_toNat_eq_slice, ← sig32_toNat_eq_slice]
    rfl
  · intro h s
    rw [exec_class16_next_iff, ← bexp16_toNat_eq_slice, ← sig16_toNat_eq_slice]
    rfl

/-- Settles O26: the five codes, read off. -/
theorem classCodes : Obligations.ClassCodes := by
  unfold Obligations.ClassCodes
  exact ⟨rfl, rfl, rfl, rfl, rfl, FpClass.code_le⟩

end Sys2Proof
end

section
/-! The exponent numeral (44_formatter.md R74): it is the library's decimal numeral after a sign, so its length and the
number that it reads back as are the library's. -/

namespace Sys2Proof.Machine

/-- With enough fuel, the digits are those of the library's numeral. -/
theorem decDigits_eq_toDigits {fuel n : Nat} (h : n < fuel) : decDigits fuel n = Nat.toDigits 10 n := by
  induction fuel generalizing n with
  | zero => omega
  | succ fuel ih =>
    rw [decDigits, Nat.toDigits_eq_if (by decide)]
    split_ifs with hsmall
    · rfl
    · rw [ih (by omega)]

theorem dec_eq (z : Int) : dec z = (if z < 0 then ['-'] else []) ++ Nat.toDigits 10 z.natAbs := by
  rw [dec, decDigits_eq_toDigits (Nat.lt_succ_self _)]
  split_ifs <;> rfl

/-- The decimal digits of a number, most significant first, as numbers. -/
def decimal (n : Nat) : List Nat := if n = 0 then [0] else (Nat.digits 10 n).reverse

theorem decimal_of_lt {n : Nat} (h : n < 10) : decimal n = [n] := by
  unfold decimal
  split_ifs with hzero
  · rw [hzero]
  · rw [Nat.digits_of_lt 10 n hzero h]
    rfl

theorem decimal_of_ge {n : Nat} (h : 10 ≤ n) : decimal n = decimal (n / 10) ++ [n % 10] := by
  rw [decimal, decimal, if_neg (by omega), if_neg (by omega), Nat.digits_of_two_le_of_pos (by decide) (by omega),
    List.reverse_cons]

theorem toDigits_eq_map_decimal (n : Nat) : Nat.toDigits 10 n = (decimal n).map Nat.digitChar := by
  induction n using Nat.strongRecOn with
  | _ n ih =>
    rw [Nat.toDigits_eq_if (by decide)]
    split_ifs with hsmall
    · rw [decimal_of_lt hsmall]
      rfl
    · rw [ih (n / 10) (by omega), decimal_of_ge (n := n) (by omega), List.map_append]
      rfl

theorem decimal_lt {n d : Nat} (h : d ∈ decimal n) : d < 10 := by
  unfold decimal at h
  split_ifs at h
  · rw [List.mem_singleton.mp h]
    decide
  · exact Nat.digits_lt_base (by decide) (List.mem_reverse.mp h)

theorem decimal_ne_nil (n : Nat) : decimal n ≠ [] := by
  unfold decimal
  split_ifs with hzero
  · exact List.cons_ne_nil _ _
  · exact fun h => Nat.digits_ne_nil_iff_ne_zero.mpr hzero (List.reverse_eq_nil_iff.mp h)

/-- The first digit is not 0 unless it stands alone. -/
theorem decimal_eq_of_head_zero {n : Nat} (h : (decimal n).head? = some 0) : decimal n = [0] := by
  unfold decimal at h ⊢
  split_ifs at h ⊢ with hzero
  · rfl
  · rw [List.head?_reverse, List.getLast?_eq_some_getLast (Nat.digits_ne_nil_iff_ne_zero.mpr hzero)] at h
    exact absurd (Option.some.inj h) (Nat.getLast_digit_ne_zero 10 hzero)

/-- Horner's rule over the digits gives the number back. -/
theorem foldl_decimal (n : Nat) : (decimal n).foldl (fun acc d => acc * 10 + d) 0 = n := by
  induction n using Nat.strongRecOn with
  | _ n ih =>
    obtain hsmall | hbig := Nat.lt_or_ge n 10
    · rw [decimal_of_lt hsmall]
      simp
    · rw [decimal_of_ge hbig, List.foldl_append, ih (n / 10) (by omega)]
      exact Nat.div_add_mod' n 10

theorem toDigits_chars {n : Nat} {c : Char} (h : c ∈ Nat.toDigits 10 n) : c ∈ textAlphabet := by
  rw [toDigits_eq_map_decimal] at h
  obtain ⟨d, hd, rfl⟩ := List.mem_map.mp h
  have hdigit : ∀ d < 10, Nat.digitChar d ∈ textAlphabet := by decide
  exact hdigit d (decimal_lt hd)

theorem dec_chars {z : Int} {c : Char} (h : c ∈ dec z) : c ∈ textAlphabet := by
  rw [dec_eq, List.mem_append] at h
  obtain hsign | hdigit := h
  · split_ifs at hsign
    · rw [List.mem_singleton.mp hsign]
      decide
    · exact absurd hsign List.not_mem_nil
  · exact toDigits_chars hdigit

theorem dec_length (z : Int) : (dec z).length = (if z < 0 then 1 else 0) + (Nat.toDigits 10 z.natAbs).length := by
  rw [dec_eq, List.length_append]
  split_ifs <;> rfl

/-- A number of at most `k + 2` digits that needs more than `k + 1` of them has `k + 2`. -/
theorem toDigits_length_eq {n k : Nat} (hlow : 10 ^ (k + 1) ≤ n) (hhigh : n < 10 ^ (k + 2)) :
    (Nat.toDigits 10 n).length = k + 2 := by
  have hle := (Nat.length_toDigits_le_iff (b := 10) (by decide) (Nat.succ_pos (k + 1))).mpr hhigh
  have hgt := mt (Nat.length_toDigits_le_iff (b := 10) (by decide) (Nat.succ_pos k)).mp (Nat.not_lt.mpr hlow)
  omega

theorem toDigits_length_one {n : Nat} (h : n ≤ 9) : (Nat.toDigits 10 n).length = 1 := by
  rw [Nat.toDigits_of_lt_base (by omega)]
  rfl

theorem toDigits_length_two {n : Nat} (hlow : 10 ≤ n) (hhigh : n ≤ 99) : (Nat.toDigits 10 n).length = 2 :=
  toDigits_length_eq (k := 0) hlow (by omega)

theorem toDigits_length_three {n : Nat} (hlow : 100 ≤ n) (hhigh : n ≤ 999) : (Nat.toDigits 10 n).length = 3 :=
  toDigits_length_eq (k := 1) hlow (by omega)

/-- The numeral's length by the size of the number: the rows of 44_formatter.md R79. -/
theorem dec_length_of_range (z : Int) :
    (0 ≤ z ∧ z ≤ 9 → (dec z).length = 1) ∧ (10 ≤ z ∧ z ≤ 99 ∨ -9 ≤ z ∧ z ≤ -1 → (dec z).length = 2) ∧
      (100 ≤ z ∧ z ≤ 999 ∨ -99 ≤ z ∧ z ≤ -10 → (dec z).length = 3) ∧ (-999 ≤ z ∧ z ≤ -100 → (dec z).length = 4) := by
  rw [dec_length]
  refine ⟨fun h => ?_, ?_, ?_, fun h => ?_⟩
  · rw [if_neg (by omega), toDigits_length_one (by omega)]
  · rintro (h | h)
    · rw [if_neg (by omega), toDigits_length_two (by omega) (by omega)]
    · rw [if_pos (by omega), toDigits_length_one (by omega)]
  · rintro (h | h)
    · rw [if_neg (by omega), toDigits_length_three (by omega) (by omega)]
    · rw [if_pos (by omega), toDigits_length_two (by omega) (by omega)]
  · rw [if_pos (by omega), toDigits_length_three (by omega) (by omega)]

/-- The first digit is no minus sign, so the sign is read off the numeral's first character. -/
theorem head_toDigits_ne_minus (n : Nat) : (Nat.toDigits 10 n).head? ≠ some '-' := by
  intro h
  rw [toDigits_eq_map_decimal, List.head?_map] at h
  obtain ⟨d, hd, hchar⟩ := Option.map_eq_some_iff.mp h
  have hdigit : ∀ d < 10, Nat.digitChar d ≠ '-' := by decide
  exact hdigit d (decimal_lt (List.mem_of_mem_head? hd)) hchar

theorem toDigits_injective {n k : Nat} (h : Nat.toDigits 10 n = Nat.toDigits 10 k) : n = k := by
  rw [← Nat.ofDigitChars_ten_toDigits (n := n), h, Nat.ofDigitChars_ten_toDigits]

theorem dec_injective {x y : Int} (h : dec x = dec y) : x = y := by
  have hsign : ∀ z : Int, z < 0 ↔ (dec z).head? = some '-' := by
    intro z
    rw [dec_eq]
    split_ifs with hz
    · exact iff_of_true hz rfl
    · exact iff_of_false hz (head_toDigits_ne_minus _)
  have hneg : x < 0 ↔ y < 0 := by rw [hsign, hsign, h]
  rw [dec_eq, dec_eq, if_congr hneg rfl rfl] at h
  have habs := toDigits_injective (List.append_cancel_left h)
  omega

end Sys2Proof.Machine
end

section
/-! The natural rendering as a whole (44_formatter.md sections 2 and 7): its characters, its length, and that it tells
patterns apart. -/

namespace Sys2Proof.Machine

theorem signChar_mem (sign : BitVec 1) : signChar sign ∈ textAlphabet := by
  revert sign
  decide

theorem signChar_injective {s t : BitVec 1} (h : signChar s = signChar t) : s = t := by
  revert s t
  decide

theorem binText_chars {n v : Nat} {c : Char} (h : c ∈ binText n v) : c ∈ textAlphabet := by
  obtain ⟨k, -, rfl⟩ := List.mem_map.mp h
  split_ifs <;> decide

/-- Every bit of a number of `n` bits is one of its `n` characters. -/
theorem binText_injective {n v w : Nat} (hv : v < 2 ^ n) (hw : w < 2 ^ n) (h : binText n v = binText n w) : v = w := by
  apply Nat.eq_of_testBit_eq
  intro i
  obtain hi | hi := Nat.lt_or_ge i n
  · have hchar := congrArg (·[n - 1 - i]?) h
    simp only [binText_get n _ (n - 1 - i) (by omega), show n - 1 - (n - 1 - i) = i by omega] at hchar
    cases hvi : v.testBit i <;> cases hwi : w.testBit i <;> simp [hvi, hwi] at hchar ⊢
  · have hpow : 2 ^ n ≤ 2 ^ i := Nat.pow_le_pow_right (by decide) hi
    rw [Nat.testBit_lt_two_pow (by omega), Nat.testBit_lt_two_pow (by omega)]

theorem digitsText_chars {sign : BitVec 1} {lead : Char} {w sig : Nat} {x : Int}
    (hlead : lead ∈ textAlphabet) {c : Char}
    (h : c ∈ digitsText sign lead w sig x) : c ∈ textAlphabet := by
  simp only [digitsText, List.mem_append, List.mem_cons, List.not_mem_nil, or_false] at h
  obtain (((rfl | rfl | rfl) | hbit) | (rfl | rfl | rfl)) | hdec := h
  · exact signChar_mem sign
  · exact hlead
  · decide
  · exact binText_chars hbit
  · decide
  · decide
  · decide
  · exact dec_chars hdec

/-- The layout with digits is read back: the parts before the exponent have fixed lengths. -/
theorem digitsText_injective {s t : BitVec 1} {lead : Char} {w : Nat} {m n : BitVec w} {x y : Int}
    (h : digitsText s lead w m.toNat x = digitsText t lead w n.toNat y) : s = t ∧ m = n ∧ x = y := by
  obtain ⟨hfront, hexp⟩ := List.append_inj h (by simp)
  obtain ⟨hmantissa, -⟩ := List.append_inj hfront (by simp)
  obtain ⟨hsign, hbits⟩ := List.append_inj hmantissa rfl
  exact ⟨signChar_injective (List.cons.inj hsign).1,
    BitVec.eq_of_toNat_eq (binText_injective m.isLt n.isLt hbits), dec_injective hexp⟩

section
variable {we wm : Nat} {c c' : FpClass} {d d' : Decomposed we wm} {minExp : Int}

theorem naturalText_chars {ch : Char} (h : ch ∈ naturalText c d minExp) : ch ∈ textAlphabet := by
  cases c with
  | zero =>
    obtain rfl | hrest := List.mem_cons.mp h
    · exact signChar_mem d.sign
    · exact (by decide : ['0'] ⊆ textAlphabet) hrest
  | subnormal => exact digitsText_chars (by decide) h
  | normal => exact digitsText_chars (by decide) h
  | infinity =>
    obtain rfl | hrest := List.mem_cons.mp h
    · exact signChar_mem d.sign
    · exact (by decide : ['I', 'N', 'F'] ⊆ textAlphabet) hrest
  | nan => exact (by decide : ['N', 'a', 'N'] ⊆ textAlphabet) h

/-- The second and third character of a rendering tell its class. -/
def classMark : FpClass → Option Char × Option Char
  | .zero => (some '0', none)
  | .subnormal => (some '0', some '.')
  | .normal => (some '1', some '.')
  | .infinity => (some 'I', some 'N')
  | .nan => (some 'a', some 'N')

theorem classMark_injective (h : classMark c = classMark c') : c = c' := by
  revert h
  cases c <;> cases c' <;> decide

theorem naturalText_mark : ((naturalText c d minExp)[1]?, (naturalText c d minExp)[2]?) = classMark c := by
  cases c <;> rfl

theorem class_eq_of_naturalText_eq (h : naturalText c d minExp = naturalText c' d' minExp) : c = c' := by
  apply classMark_injective
  rw [← naturalText_mark (d := d) (minExp := minExp), h, naturalText_mark]

/-- What a rendering of a class other than NaN gives back. -/
theorem fields_eq_of_naturalText_eq (h : naturalText c d minExp = naturalText c d' minExp) (hc : c ≠ .nan) :
    d.sign = d'.sign ∧ (c = .normal ∨ c = .subnormal → d.sig = d'.sig) ∧ (c = .normal → d.uexp = d'.uexp) := by
  cases c with
  | zero => exact ⟨signChar_injective (List.cons.inj h).1, by simp, by simp⟩
  | subnormal =>
    obtain ⟨hsign, hsig, -⟩ := digitsText_injective h
    exact ⟨hsign, fun _ => hsig, by simp⟩
  | normal =>
    obtain ⟨hsign, hsig, hexp⟩ := digitsText_injective h
    exact ⟨hsign, fun _ => hsig, fun _ => hexp⟩
  | infinity => exact ⟨signChar_injective (List.cons.inj h).1, by simp, by simp⟩
  | nan => exact absurd rfl hc

/-- Away from NaN the exponent field and the significand are in the rendering or fixed by the class
(41_classifier.md R45), so a rendering gives back all three fields. -/
theorem fields_eq_of_rendering {allOne bias : Nat} (hrow : ClassRow c d.bexp.toNat d.sig.toNat allOne)
    (hrow' : ClassRow c d'.bexp.toNat d'.sig.toNat allOne) (hd : d.uexp = unbiased d.bexp.toNat bias)
    (hd' : d'.uexp = unbiased d'.bexp.toNat bias) (h : naturalText c d minExp = naturalText c d' minExp)
    (hc : c ≠ .nan) : d.sign = d'.sign ∧ d.bexp = d'.bexp ∧ d.sig = d'.sig := by
  obtain ⟨hsign, hsig, hexp⟩ := fields_eq_of_naturalText_eq h hc
  have hends : ∀ {w : Nat} {x y : BitVec w} {k : Nat}, x.toNat = k → y.toNat = k → x = y :=
    fun hx hy => BitVec.eq_of_toNat_eq (hx.trans hy.symm)
  refine ⟨hsign, ?_⟩
  cases c with
  | zero => exact ⟨hends hrow.1 hrow'.1, hends hrow.2 hrow'.2⟩
  | subnormal => exact ⟨hends hrow.1 hrow'.1, hsig (.inr rfl)⟩
  | normal =>
    have hfield := hexp rfl
    rw [hd, hd', unbiased, unbiased] at hfield
    exact ⟨BitVec.eq_of_toNat_eq (by omega), hsig (.inl rfl)⟩
  | infinity => exact ⟨hends hrow.1 hrow'.1, hends hrow.2 hrow'.2⟩
  | nan => exact absurd rfl hc

/-- The length of a rendering by class, given the lengths of the two layouts with digits (44_formatter.md R79). -/
def lengthOfClass (subnormal normal : Nat) : FpClass → Nat
  | .zero => 2
  | .nan => 3
  | .infinity => 4
  | .subnormal => subnormal
  | .normal => normal

theorem lengthOfClass_le {subnormal normal k : Nat} {c : FpClass} (hk : 4 ≤ k) (hsub : subnormal ≤ k)
    (hnorm : c = .normal → normal ≤ k) : lengthOfClass subnormal normal c ≤ k := by
  cases c with
  | zero => exact Nat.le_trans (by decide : 2 ≤ 4) hk
  | subnormal => exact hsub
  | normal => exact hnorm rfl
  | infinity => exact hk
  | nan => exact Nat.le_trans (by decide : 3 ≤ 4) hk

theorem naturalText_length : (naturalText c d minExp).length =
    lengthOfClass (wm + 6 + (dec minExp).length) (wm + 6 + (dec d.uexp).length) c := by
  cases c with
  | subnormal => exact digitsText_length ..
  | normal => exact digitsText_length ..
  | _ => rfl

end

/-- A Normal's exponent: the field is neither all zeros nor all ones (41_classifier.md R45). -/
theorem uexp_range_of_normal32 {a : BitPattern32} (h : class32 a = .normal) :
    -126 ≤ (decompose32 a).uexp ∧ (decompose32 a).uexp ≤ 127 := by
  rw [class32_eq_iff_classRow] at h
  obtain ⟨hlow, hhigh⟩ := h
  simp only [decompose32, unbiased, Config.bias32]
  omega

theorem uexp_range_of_normal16 {h : BitPattern16} (hc : class16 h = .normal) :
    -14 ≤ (decompose16 h).uexp ∧ (decompose16 h).uexp ≤ 15 := by
  rw [class16_eq_iff_classRow] at hc
  obtain ⟨hlow, hhigh⟩ := hc
  simp only [decompose16, unbiased, Config.bias16]
  omega

theorem natural32_length_of_class {a : BitPattern32} {c : FpClass} (h : class32 a = c) :
    (natural32 a).length = lengthOfClass 33 (29 + (dec (decompose32 a).uexp).length) c := by
  rw [natural32_of_class h, naturalText_length, dec_emin32]
  rfl

theorem natural16_length_of_class {h : BitPattern16} {c : FpClass} (hc : class16 h = c) :
    (natural16 h).length = lengthOfClass 19 (16 + (dec (decompose16 h).uexp).length) c := by
  rw [natural16_of_class hc, naturalText_length, dec_emin16]
  rfl

theorem dec_length_le_four {z : Int} (hlow : -999 ≤ z) (hhigh : z ≤ 999) : (dec z).length ≤ 4 := by
  obtain ⟨hone, htwo, hthree, hfour⟩ := dec_length_of_range z
  omega

theorem dec_length_le_three {z : Int} (hlow : -99 ≤ z) (hhigh : z ≤ 999) : (dec z).length ≤ 3 := by
  obtain ⟨hone, htwo, hthree, -⟩ := dec_length_of_range z
  omega

theorem natural32_length_le (a : BitPattern32) : (natural32 a).length ≤ 33 := by
  rw [natural32_length_of_class rfl]
  refine lengthOfClass_le (by decide) (Nat.le_refl _) fun hc => ?_
  obtain ⟨hlow, hhigh⟩ := uexp_range_of_normal32 hc
  have hdec := dec_length_le_four (z := (decompose32 a).uexp) (by omega) (by omega)
  omega

theorem natural16_length_le (h : BitPattern16) : (natural16 h).length ≤ 19 := by
  rw [natural16_length_of_class rfl]
  refine lengthOfClass_le (by decide) (Nat.le_refl _) fun hc => ?_
  obtain ⟨hlow, hhigh⟩ := uexp_range_of_normal16 hc
  have hdec := dec_length_le_three (z := (decompose16 h).uexp) (by omega) (by omega)
  omega

theorem bounded_chars {term n : Nat} {t : Text} (h : ∀ c ∈ t, c ∈ textAlphabet) :
    ∀ c ∈ bounded term n t, c ∈ textAlphabet :=
  fun c hc => h c (List.mem_of_mem_take hc)

theorem bounded_length (term n : Nat) (t : Text) : (bounded term n t).length = min (n - term) t.length := by
  rw [bounded, List.length_take, capacity_le]

/-- A bound of 0 leaves nothing, with or without a terminator. -/
theorem bounded_zero (term : Nat) (t : Text) : bounded term 0 t = [] := by
  rw [bounded, capacity_le, Nat.zero_sub, List.take_zero]

end Sys2Proof.Machine

namespace Sys2Proof

open Machine

/-- Settles O50: the digits are the library's, least significant first, turned round. -/
theorem exponentNumeralReadsBack : Obligations.ExponentNumeralReadsBack := by
  unfold Obligations.ExponentNumeralReadsBack
  intro z
  refine ⟨decimal z.natAbs, ?_, fun d => decimal_lt, decimal_ne_nil _, decimal_eq_of_head_zero, foldl_decimal _⟩
  rw [dec_eq, toDigits_eq_map_decimal]

/-- Settles O51: the text is the rendering cut at the capacity, and no rendering is longer than 33 characters. -/
theorem textIsABoundedPrefix : Obligations.TextIsABoundedPrefix := by
  unfold Obligations.TextIsABoundedPrefix
  intro term n hterm natural hnatural
  have hlength : natural.length ≤ 33 := by
    obtain ⟨a, rfl⟩ | ⟨h, rfl⟩ := hnatural
    · exact natural32_length_le a
    · exact (natural16_length_le h).trans (by decide)
  refine ⟨bounded_length_le term n natural, List.take_prefix .., ?_, fun hn => bounded_of_fits (by omega), fun hn => ?_⟩
  · rintro rfl
    exact bounded_zero term natural
  · rw [bounded_length, Nat.min_eq_left hn]

/-- Settles O52: the length is fixed by the class but for the numeral of a Normal's exponent. -/
theorem naturalRenderingLengths : Obligations.NaturalRenderingLengths := by
  unfold Obligations.NaturalRenderingLengths
  constructor
  · rintro a _ rfl
    refine ⟨natural32_length_of_class, natural32_length_of_class, natural32_length_of_class,
      natural32_length_of_class, fun hc => ?_⟩
    obtain ⟨hone, htwo, hthree, hfour⟩ := dec_length_of_range (decompose32 a).uexp
    have hrange := uexp_range_of_normal32 hc
    have hlength : (natural32 a).length = 29 + (dec (decompose32 a).uexp).length := natural32_length_of_class hc
    omega
  · rintro h _ rfl
    refine ⟨natural16_length_of_class, natural16_length_of_class, natural16_length_of_class,
      natural16_length_of_class, fun hc => ?_⟩
    obtain ⟨hone, htwo, hthree, -⟩ := dec_length_of_range (decompose16 h).uexp
    have hrange := uexp_range_of_normal16 hc
    have hlength : (natural16 h).length = 16 + (dec (decompose16 h).uexp).length := natural16_length_of_class hc
    omega

/-- Settles O53: a rendering gives back the class and, away from NaN, every field that the class leaves open. -/
theorem renderingDistinguishesAllButNaNs : Obligations.RenderingDistinguishesAllButNaNs := by
  unfold Obligations.RenderingDistinguishesAllButNaNs
  constructor
  · intro a b h
    obtain hnan | hnan := eq_or_ne (class32 b) .nan
    · exact .inr ⟨(class_eq_of_naturalText_eq h).trans hnan, hnan⟩
    · have hclass : class32 a = class32 b := class_eq_of_naturalText_eq h
      rw [natural32, natural32, hclass] at h
      obtain ⟨hsign, hbexp, hsig⟩ := fields_eq_of_rendering ((class32_eq_iff_classRow a _).mp hclass)
        ((class32_eq_iff_classRow b _).mp rfl) rfl rfl h hnan
      exact .inl (pattern32_ext hsign hbexp hsig)
  · intro a b h
    obtain hnan | hnan := eq_or_ne (class16 b) .nan
    · exact .inr ⟨(class_eq_of_naturalText_eq h).trans hnan, hnan⟩
    · have hclass : class16 a = class16 b := class_eq_of_naturalText_eq h
      rw [natural16, natural16, hclass] at h
      obtain ⟨hsign, hbexp, hsig⟩ := fields_eq_of_rendering ((class16_eq_iff_classRow a _).mp hclass)
        ((class16_eq_iff_classRow b _).mp rfl) rfl rfl h hnan
      exact .inl (pattern16_ext hsign hbexp hsig)

/-- Settles O54: every piece of a rendering is made of the alphabet, and cutting adds nothing. -/
theorem textCharactersAreAscii : Obligations.TextCharactersAreAscii := by
  unfold Obligations.TextCharactersAreAscii
  exact ⟨fun a n => bounded_chars fun c => naturalText_chars, fun h n => bounded_chars fun c => naturalText_chars,
    by decide⟩

/-- Settles O55: the text leaves room for the terminator. -/
theorem hostBufferIsNeverOverrun : Obligations.HostBufferIsNeverOverrun := by
  unfold Obligations.HostBufferIsNeverOverrun
  rintro term n terminator natural text hterm rfl
  obtain rfl | hn := Nat.eq_zero_or_pos n
  · rw [bounded_zero]
    exact ⟨Nat.le_refl 0, fun k c h => absurd h (by simp), fun _ h => absurd h (by decide), fun _ => rfl⟩
  · have hlength := bounded_length_le term n natural
    rw [bufferBytes, if_neg (by omega)]
    refine ⟨?_, fun k c hk => ?_, fun hone _ => ?_, fun h => absurd h (by omega)⟩
    · rw [List.length_append, List.length_map, List.length_replicate]
      omega
    · rw [List.getElem?_append_left (by simpa using (List.getElem?_eq_some_iff.mp hk).1), List.getElem?_map, hk]
      rfl
    · rw [List.getElem?_append_right (by simp), List.length_map, Nat.sub_self, hone]
      rfl

/-- Settles O47: the response is the rendering cut at the capacity. -/
theorem decodeOperationsGiveBoundedText : Obligations.DecodeOperationsGiveBoundedText := by
  unfold Obligations.DecodeOperationsGiveBoundedText
  exact ⟨fun a n s => exec_decode32 a n s, fun h n s => exec_decode16 h n s, Config.term_le_one⟩

theorem exec_decode32_of_fits {a : BitPattern32} {n k : Nat} {t : Text} (s : State) (hn : k ≤ n)
    (ht : natural32 a = t) (hfits : t.length + 1 ≤ k) :
    exec (.decode32 a n) s = .next { s with response := some (.decode32 t) } := by
  have hterm := Config.term_le_one
  rw [exec_decode32, ht, bounded_of_fits (by omega), respond_next_iff]

/-- Settles O56: each example's rendering is evaluated, and it fits its bound with either terminator. -/
theorem documentExamplesOfDecode : Obligations.DocumentExamplesOfDecode := by
  unfold Obligations.DocumentExamplesOfDecode
  intro s n
  refine ⟨fun hn => exec_decode32_of_fits s hn (by decide) (by decide), fun hn => ⟨?_, ?_, ?_, ?_⟩, fun a => ?_⟩
  · exact exec_decode32_of_fits s hn (by decide) (by decide)
  · exact exec_decode32_of_fits s hn (by decide) (by decide)
  · exact exec_decode32_of_fits s hn (by decide) (by decide)
  · exact exec_decode32_of_fits s hn (by decide) (by decide)
  · rw [exec_decode32, bounded_zero, respond_next_iff]

end Sys2Proof
end

section
/-! The converter's result for every input and every `NAN16_SIG`: the input's sign above a magnitude in which the sign
takes no part (43_converter.md sections 3 and 9). -/

namespace Sys2Proof.Machine

/-- The low 15 bits of the result; `narrowWith_toNat` ties them to the converter. -/
def resultMagnitude (nanSig : BitVec 10) (a : BitPattern32) : Nat :=
  if class32 a = .nan then 0x7C00 + nanSig.toNat else narrowMagnitude a

theorem resultMagnitude_of_nan {a : BitPattern32} (h : class32 a = .nan) (nanSig : BitVec 10) :
    resultMagnitude nanSig a = 0x7C00 + nanSig.toNat := if_pos h

theorem resultMagnitude_of_not_nan {a : BitPattern32} (h : class32 a ≠ .nan) (nanSig : BitVec 10) :
    resultMagnitude nanSig a = narrowMagnitude a := if_neg h

theorem resultMagnitude_lt (nanSig : BitVec 10) (a : BitPattern32) : resultMagnitude nanSig a < 2 ^ 15 := by
  have hsig := nanSig.isLt
  have hmag := narrowMagnitude_le a
  unfold resultMagnitude
  split_ifs <;> omega

theorem narrowWith_eq_narrow_of_not_nan {a : BitPattern32} (h : class32 a ≠ .nan) (nanSig : BitVec 10) :
    narrowWith nanSig a = narrow a := by
  rw [narrow, narrowWith, narrowWith, narrowNat_of_not_nan h, narrowNat_of_not_nan h]

theorem narrowWith_toNat (nanSig : BitVec 10) (a : BitPattern32) :
    (narrowWith nanSig a).toNat = (sign32 a).toNat * 2 ^ 15 + resultMagnitude nanSig a := by
  obtain hnan | hnan := eq_or_ne (class32 a) .nan
  · have hsign := (sign32 a).isLt
    have hsig := nanSig.isLt
    rw [narrowWith, narrowNat_of_nan hnan, assemble16_eq_add (by decide) hsig, resultMagnitude_of_nan hnan,
      BitVec.toNat_ofNat]
    omega
  · rw [narrowWith_eq_narrow_of_not_nan hnan, narrow_toNat_of_not_nan hnan, resultMagnitude_of_not_nan hnan]

theorem narrow_toNat (a : BitPattern32) :
    (narrow a).toNat = (sign32 a).toNat * 2 ^ 15 + resultMagnitude Config.nan16Sig a := narrowWith_toNat _ a

theorem sign16_narrowWith (nanSig : BitVec 10) (a : BitPattern32) : sign16 (narrowWith nanSig a) = sign32 a := by
  have hmag := resultMagnitude_lt nanSig a
  apply BitVec.eq_of_toNat_eq
  rw [sign16_toNat, narrowWith_toNat]
  omega

theorem bexp16_narrowWith (nanSig : BitVec 10) (a : BitPattern32) :
    (bexp16 (narrowWith nanSig a)).toNat = resultMagnitude nanSig a / 2 ^ 10 := by
  have hmag := resultMagnitude_lt nanSig a
  rw [bexp16_toNat, narrowWith_toNat]
  omega

theorem sig16_narrowWith (nanSig : BitVec 10) (a : BitPattern32) :
    (sig16 (narrowWith nanSig a)).toNat = resultMagnitude nanSig a % 2 ^ 10 := by
  rw [sig16_toNat, narrowWith_toNat]
  omega

theorem narrow_toNat_mod (a : BitPattern32) : (narrow a).toNat % 2 ^ 15 = resultMagnitude Config.nan16Sig a := by
  have hmag := resultMagnitude_lt Config.nan16Sig a
  rw [narrow_toNat]
  omega

/-- The sign bit is flipped in its own field and in no other. -/
theorem fields_flipSign32 (a : BitPattern32) :
    sign32 (a ^^^ 0x80000000#32) = sign32 a ^^^ 1#1 ∧ bexp32 (a ^^^ 0x80000000#32) = bexp32 a ∧
      sig32 (a ^^^ 0x80000000#32) = sig32 a :=
  ⟨BitVec.extractLsb'_xor.trans (congrArg (sign32 a ^^^ ·) (by decide)),
    extractLsb'_xor_of_mask_zero a _ (by decide), extractLsb'_xor_of_mask_zero a _ (by decide)⟩

theorem fields_flipSign16 (h : BitPattern16) :
    sign16 (h ^^^ 0x8000#16) = sign16 h ^^^ 1#1 ∧ bexp16 (h ^^^ 0x8000#16) = bexp16 h ∧
      sig16 (h ^^^ 0x8000#16) = sig16 h :=
  ⟨BitVec.extractLsb'_xor.trans (congrArg (sign16 h ^^^ ·) (by decide)),
    extractLsb'_xor_of_mask_zero h _ (by decide), extractLsb'_xor_of_mask_zero h _ (by decide)⟩

theorem resultMagnitude_flipSign (nanSig : BitVec 10) (a : BitPattern32) :
    resultMagnitude nanSig (a ^^^ 0x80000000#32) = resultMagnitude nanSig a := by
  obtain ⟨-, hbexp, hsig⟩ := fields_flipSign32 a
  unfold resultMagnitude narrowMagnitude
  rw [class32_flipSign, hbexp, hsig]

theorem narrowWith_flipSign (nanSig : BitVec 10) (a : BitPattern32) :
    narrowWith nanSig (a ^^^ 0x80000000#32) = narrowWith nanSig a ^^^ 0x8000#16 := by
  obtain ⟨hsign32, -, -⟩ := fields_flipSign32 a
  obtain ⟨hsign16, hbexp16, hsig16⟩ := fields_flipSign16 (narrowWith nanSig a)
  apply pattern16_ext
  · rw [hsign16, sign16_narrowWith, sign16_narrowWith, hsign32]
  · apply BitVec.eq_of_toNat_eq
    rw [hbexp16, bexp16_narrowWith, bexp16_narrowWith, resultMagnitude_flipSign]
  · apply BitVec.eq_of_toNat_eq
    rw [hsig16, sig16_narrowWith, sig16_narrowWith, resultMagnitude_flipSign]

theorem class16_eq_nan_iff (h : BitPattern16) : class16 h = .nan ↔ 0x7C00 < h.toNat % 2 ^ 15 := by
  rw [class16_eq_iff_classRow, bexp16_toNat, sig16_toNat]
  simp only [ClassRow]
  omega

/-- A NaN of the result comes from a NaN: every other magnitude is at most the infinity's. -/
theorem class16_narrowWith_eq_nan_iff {nanSig : BitVec 10} (hsig : nanSig ≠ 0#10) (a : BitPattern32) :
    class16 (narrowWith nanSig a) = .nan ↔ class32 a = .nan := by
  have hmag := resultMagnitude_lt nanSig a
  have hmod : (narrowWith nanSig a).toNat % 2 ^ 15 = resultMagnitude nanSig a := by
    rw [narrowWith_toNat]
    omega
  rw [class16_eq_nan_iff, hmod]
  obtain hnan | hnan := eq_or_ne (class32 a) .nan
  · have hpos : nanSig.toNat ≠ 0 := fun h => hsig (BitVec.eq_of_toNat_eq h)
    rw [resultMagnitude_of_nan hnan]
    exact iff_of_true (by omega) hnan
  · have hle := narrowMagnitude_le a
    rw [resultMagnitude_of_not_nan hnan]
    exact iff_of_false (by omega) hnan

theorem fields_narrowWith_of_nan {a : BitPattern32} (h : class32 a = .nan) (nanSig : BitVec 10) :
    bexp16 (narrowWith nanSig a) = 31#5 ∧ sig16 (narrowWith nanSig a) = nanSig := by
  have hsig := nanSig.isLt
  constructor
  · apply BitVec.eq_of_toNat_eq
    rw [bexp16_narrowWith, resultMagnitude_of_nan h, BitVec.toNat_ofNat]
    omega
  · apply BitVec.eq_of_toNat_eq
    rw [sig16_narrowWith, resultMagnitude_of_nan h]
    omega

theorem nan16Sig_ne_zero : Config.nan16Sig ≠ 0#10 := by
  intro h
  have hrange := Config.nan16Sig_range
  rw [h] at hrange
  exact absurd hrange.1 (by decide)

/-! The alignment's candidate (10_state.md R16, 70_reset_and_hazards.md R93). -/

theorem align_remainder_le {m : Nat} (hm : m < 2 ^ 23) (e : Int) : (align m e).remainder ≤ 0x1FFF := by
  obtain hlow | hhigh := Int.lt_or_le e (-14)
  · rw [align_of_low hlow, alignSubnormal_remainder hm]
    exact Nat.le_of_lt_succ (Nat.mod_lt _ (by decide))
  · rw [align_of_high hhigh, candidate_remainder]
    exact Nat.le_of_lt_succ (Nat.mod_lt _ (by decide))

theorem align_e_le {m : Nat} {e : Int} (h : e ≤ 128) : (align m e).e ≤ 128 := by
  obtain hlow | hhigh := Int.lt_or_le e (-14)
  · rw [align_of_low hlow, alignSubnormal_e]
    decide
  · rwa [align_of_high hhigh, candidate_e]

/-- A mantissa without its leading bit after the rounding had none before, and nothing was carried. -/
theorem roundMain_lt_lead {c : Candidate} (hc : c.InRange) (h : (roundMain c.main c.remainder c.sticky).1 < 0x400) :
    c.e = -14 ∧ (roundMain c.main c.remainder c.sticky).2 = 0 := by
  obtain ⟨-, hmain, hlead⟩ := hc
  obtain ⟨-, hinc | ⟨-, -, hpair⟩⟩ := roundMain_range hmain c.remainder c.sticky
  · have hvalue := roundMain_value hmain c.remainder c.sticky
    rw [hinc, Nat.pow_zero, Nat.mul_one] at hvalue
    exact ⟨hlead (by omega), hinc⟩
  · rw [hpair] at h
    exact absurd h (by decide)

/-- The host's `ROUND` request for a candidate in range (30_encoding.md R35). -/
theorem evaluate_round_packed (s : State) {main remainder : Nat} (hmain : main ≤ 0x7FF)
    (hremainder : remainder ≤ 0x1FFF)
    (sticky : Bool) :
    evaluate s ⟨requestWord 4#3 (BitVec.ofNat 32 (packRound main remainder sticky.toNat)), 0⟩ =
      some (.round (BitVec.ofNat 11 (roundMain main remainder sticky).1)
        (BitVec.ofNat 1 (roundMain main remainder sticky).2)) := by
  have hpacked := decodeOp_round_packed (BitVec.ofNat 11 main) (BitVec.ofNat 13 remainder) sticky 0 0
  have hm : (BitVec.ofNat 11 main).toNat = main := by rw [BitVec.toNat_ofNat]; omega
  have hr : (BitVec.ofNat 13 remainder).toNat = remainder := by rw [BitVec.toNat_ofNat]; omega
  rw [hm, hr, Nat.zero_mul, Nat.add_zero] at hpacked
  rw [evaluate_eq, decode_requestWord, hpacked, Instr.response, hm, hr]

/-- Both results of the rounding fit the widths of `ROUND`'s response, so the host loses nothing by reading them
there. -/
theorem emit_of_round_response (sign : Nat) {c : Candidate} (hc : c.InRange) :
    emit sign (c.e + ((BitVec.ofNat 1 (roundMain c.main c.remainder c.sticky).2).toNat : Int))
      (BitVec.ofNat 11 (roundMain c.main c.remainder c.sticky).1).toNat = finish sign c := by
  obtain ⟨-, hmain, -⟩ := hc
  obtain ⟨hout, hcases⟩ := roundMain_range hmain c.remainder c.sticky
  have hinc : (roundMain c.main c.remainder c.sticky).2 < 2 := by
    obtain hinc | ⟨-, -, hpair⟩ := hcases
    · omega
    · rw [hpair]
      decide
  rw [BitVec.toNat_ofNat, BitVec.toNat_ofNat, Nat.mod_eq_of_lt hinc, Nat.mod_eq_of_lt (by omega)]
  rfl

/-- The host's glue is the converter's own steps over the three responses (95_test_vectors.md P2). -/
theorem rebuildNarrow_eq (s : State) (nanSig : Nat) (a : BitPattern32) :
    rebuildNarrow s nanSig a = some (narrowNat nanSig a) := by
  have hrange := align_inRange (decompose32 a).sig.isLt (decompose32 a).uexp
  have ⟨_, hmain, _⟩ := hrange
  have hround := evaluate_round_packed s hmain (align_remainder_le (decompose32 a).sig.isLt (decompose32 a).uexp)
    (align (decompose32 a).sig.toNat (decompose32 a).uexp).sticky
  have hclass : evaluate s ⟨requestWord 2#3 a, 0⟩ = some (.class32 (class32 a)) := by
    rw [evaluate_eq, decode_requestWord]
    rfl
  have hdecomp : evaluate s ⟨requestWord 0#3 a, 0⟩ = some (.decomp32 (decompose32 a)) := by
    rw [evaluate_eq, decode_requestWord]
    rfl
  simp only [rebuildNarrow, narrowNat, hclass, hdecomp, hround, emit_of_round_response _ hrange]
  split_ifs <;> rfl

end Sys2Proof.Machine

namespace Sys2Proof

open Machine

/-- Settles O34: the magnitude above the infinity's is that of a NaN input, and its significand is `NAN16_SIG`. -/
theorem narrowOfNaN : Obligations.NarrowOfNaN := by
  unfold Obligations.NarrowOfNaN
  intro a nanSig hsig
  exact ⟨(class16_narrowWith_eq_nan_iff hsig a).symm,
    fun hnan => ⟨sign16_narrowWith nanSig a, fields_narrowWith_of_nan hnan nanSig⟩, nan16Sig_ne_zero⟩

/-- Settles O35: both results are the block's own. -/
theorem nanSignificandMattersForNaNOnly : Obligations.NaNSignificandMattersForNaNOnly := by
  unfold Obligations.NaNSignificandMattersForNaNOnly
  intro a n n' hnan
  rw [narrowWith_eq_narrow_of_not_nan hnan, narrowWith_eq_narrow_of_not_nan hnan]

/-- Settles O39: the sign stands above a magnitude that is computed from the other fields. -/
theorem narrowCopiesTheSign : Obligations.NarrowCopiesTheSign := by
  unfold Obligations.NarrowCopiesTheSign
  exact fun a => ⟨sign16_narrowWith _ a, narrowWith_flipSign _ a⟩

/-- Settles O45: the ranges of each path, and of the rounding after either. -/
theorem narrowIntermediateValuesStayInRange : Obligations.NarrowIntermediateValuesStayInRange := by
  unfold Obligations.NarrowIntermediateValuesStayInRange
  rintro a _ rfl
  have hbexp : (bexp32 a).toNat < 2 ^ 8 := (bexp32 a).isLt
  have huexp : (decompose32 a).uexp = ((bexp32 a).toNat : Int) - 127 := rfl
  have hm : (decompose32 a).sig.toNat < 2 ^ 23 := (decompose32 a).sig.isLt
  have hrange := align_inRange hm (decompose32 a).uexp
  have ⟨he, hmain, _⟩ := hrange
  refine ⟨hmain, align_remainder_le hm _, he, align_e_le (by omega), fun hlow => ?_, fun hhigh => ?_,
    (roundMain_range hmain _ _).1, roundMain_lt_lead hrange⟩
  · have hlead := alignSubnormal_main_lt hm hlow
    rw [align_of_low hlow]
    exact ⟨by omega, alignSubnormal_e _ _, by omega, by omega⟩
  · rw [align_of_high hhigh, candidate_main hm]
    exact ⟨by omega, candidate_sticky _ _, candidate_e _ _⟩

/-- Settles O46: the host's glue gives the converter's number, which is what `NARROW` responds with. -/
theorem narrowIsRebuiltFromTheOtherOperations : Obligations.NarrowIsRebuiltFromTheOtherOperations := by
  unfold Obligations.NarrowIsRebuiltFromTheOtherOperations
  intro s a
  rw [rebuildNarrow_eq, evaluate_eq, decode_requestWord]
  rfl

end Sys2Proof
end

section
/-! The invariant of the response: every operation's response satisfies what the spec promises of its record, so every
step establishes the invariant, whatever stood before. -/

namespace Sys2Proof

open Machine

/-- 42_rounding.md R52. -/
theorem roundMain_of_carry {main : Nat} (h : main ≤ 0x7FF) {remainder : Nat} {sticky : Bool}
    (hcarry : (roundMain main remainder sticky).2 ≠ 0) : (roundMain main remainder sticky).1 = 0x400 := by
  obtain ⟨-, hinc | ⟨-, -, hpair⟩⟩ := roundMain_range h remainder sticky
  · exact absurd hinc hcarry
  · rw [hpair]

/-- Every response of the block is one that the spec allows for its record. -/
theorem responseOk_response (i : Instr) : ResponseOk i.response := by
  cases i with
  | decomp32 a => exact rfl
  | decomp16 h => exact rfl
  | class32 a => exact decide_eq_true (FpClass.code_le _)
  | class16 h => exact decide_eq_true (FpClass.code_le _)
  | round main remainder sticky =>
    intro hinc
    have hcarry : (roundMain main.toNat remainder.toNat sticky).2 ≠ 0 := by
      intro hzero
      rw [hzero] at hinc
      exact absurd hinc (by decide)
    rw [roundMain_of_carry (Nat.le_of_lt_succ main.isLt) hcarry]
  | narrow a =>
    intro hnan
    exact (fields_narrowWith_of_nan ((class16_narrowWith_eq_nan_iff nan16Sig_ne_zero a).mp hnan) _).2
  | decode32 a n =>
    exact ⟨(List.length_take_le' _ _).trans (natural32_length_le a), bounded_chars fun _ => naturalText_chars⟩
  | decode16 h n =>
    exact ⟨(List.length_take_le' _ _).trans (natural16_length_le h), bounded_chars fun _ => naturalText_chars⟩

theorem inv_answered (r : Request) : Inv (answered r) := by
  rintro _ ⟨⟩
  exact responseOk_response (decode r)

/-- Settles O15: the state after a step is the answer to its request, which satisfies the invariant by itself. -/
theorem responseInvariantIsKeptByEveryStep : Obligations.ResponseInvariantIsKeptByEveryStep := by
  unfold Obligations.ResponseInvariantIsKeptByEveryStep
  intro s t _ hstep
  rw [step_next_iff.mp hstep]
  exact ⟨inv_answered s.request, rfl, rfl⟩

/-- Settles O16: no response stands at reset. -/
theorem responseInvariantAtReset : Obligations.ResponseInvariantAtReset := by
  unfold Obligations.ResponseInvariantAtReset
  intro r h
  rw [State.reset_response] at h
  exact absurd h (Option.some_ne_none r).symm

end Sys2Proof
end

section
/-! Patterns as exact integers (30_encoding.md section A.4): the magnitude bits of a format, read as one number `M`,
stand for `patternUnits w M` times the format's least positive number, and that is strictly increasing in `M`. -/

namespace Sys2Proof.Machine

/-- The magnitude of the pattern with magnitude bits `M` and a significand of `w` bits, in units of the least positive
number of the format; `scaled32_eq` and `scaled16_eq` tie it to the model. -/
def patternUnits (w M : Nat) : Nat :=
  if M / 2 ^ w = 0 then M % 2 ^ w else (2 ^ w + M % 2 ^ w) * 2 ^ (M / 2 ^ w - 1)

/-- On the grid with `b` doublings a mantissa `t` stands for `t * 2 ^ b`; it has its leading bit unless `b = 0`, and the
mantissa one above the largest is the least one of the next grid. -/
theorem patternUnits_grid {w b t : Nat} (hlead : b = 0 ∨ 2 ^ w ≤ t) (hle : t ≤ 2 * 2 ^ w) :
    patternUnits w (b * 2 ^ w + t) = t * 2 ^ b := by
  have hpos : 0 < 2 ^ w := Nat.two_pow_pos w
  obtain hsmall | hbig := Nat.lt_or_ge t (2 ^ w)
  · obtain rfl : b = 0 := by omega
    rw [Nat.zero_mul, Nat.zero_add, patternUnits, if_pos (Nat.div_eq_of_lt hsmall), Nat.mod_eq_of_lt hsmall,
      Nat.pow_zero, Nat.mul_one]
  · obtain ⟨m, rfl⟩ := Nat.exists_eq_add_of_le hbig
    obtain hm | rfl : m < 2 ^ w ∨ m = 2 ^ w := by omega
    · have hdecomp : b * 2 ^ w + (2 ^ w + m) = 2 ^ w * (b + 1) + m := by ring
      rw [hdecomp, patternUnits, Nat.mul_add_div hpos, Nat.mul_add_mod, Nat.div_eq_of_lt hm, Nat.mod_eq_of_lt hm,
        if_neg (Nat.succ_ne_zero b)]
      rfl
    · have hdecomp : b * 2 ^ w + (2 ^ w + 2 ^ w) = 2 ^ w * (b + 2) + 0 := by ring
      rw [hdecomp, patternUnits, Nat.mul_add_div hpos, Nat.mul_add_mod, Nat.zero_div, Nat.zero_mod,
        if_neg (Nat.succ_ne_zero (b + 1))]
      show (2 ^ w + 0) * 2 ^ (b + 1) = _
      ring

/-- Every magnitude is on one of the grids, with a mantissa below the next grid's. -/
theorem exists_grid (w M : Nat) : ∃ b t, M = b * 2 ^ w + t ∧ (b = 0 ∨ 2 ^ w ≤ t) ∧ t < 2 * 2 ^ w := by
  have hpos : 0 < 2 ^ w := Nat.two_pow_pos w
  have hrest : M % 2 ^ w < 2 ^ w := Nat.mod_lt M hpos
  have hsplit : M / 2 ^ w * 2 ^ w + M % 2 ^ w = M := Nat.div_add_mod' M (2 ^ w)
  cases hfield : M / 2 ^ w with
  | zero =>
    rw [hfield] at hsplit
    exact ⟨0, M % 2 ^ w, hsplit.symm, .inl rfl, by omega⟩
  | succ b =>
    rw [hfield, Nat.succ_mul] at hsplit
    exact ⟨b, 2 ^ w + M % 2 ^ w, by omega, .inr (Nat.le_add_right _ _), by omega⟩

theorem patternUnits_strictMono (w : Nat) : StrictMono (patternUnits w) := by
  refine strictMono_nat_of_lt_succ fun M => ?_
  obtain ⟨b, t, rfl, hlead, hlt⟩ := exists_grid w M
  have hlead' : b = 0 ∨ 2 ^ w ≤ t + 1 := hlead.imp_right Nat.le_succ_of_le
  rw [Nat.add_assoc, patternUnits_grid hlead hlt.le, patternUnits_grid hlead' hlt]
  exact Nat.mul_lt_mul_of_pos_right (Nat.lt_succ_self t) (Nat.two_pow_pos b)

/-- On a coarser grid a finer pattern may be no multiple of the unit, but then it is below that grid's least mantissa
with a leading bit. -/
theorem patternUnits_dvd_or_lt (w M b : Nat) : 2 ^ b ∣ patternUnits w M ∨ patternUnits w M < 2 ^ w * 2 ^ b := by
  obtain ⟨c, t, rfl, hlead, hlt⟩ := exists_grid w M
  rw [patternUnits_grid hlead hlt.le]
  obtain hgt | hle := Nat.lt_or_ge c b
  · have hpow : 2 ^ (c + 1) ≤ 2 ^ b := Nat.pow_le_pow_right (by decide) hgt
    refine .inr (Nat.lt_of_lt_of_le (Nat.mul_lt_mul_of_pos_right hlt (Nat.two_pow_pos c)) ?_)
    calc 2 * 2 ^ w * 2 ^ c = 2 ^ w * 2 ^ (c + 1) := by ring
      _ ≤ 2 ^ w * 2 ^ b := Nat.mul_le_mul_left _ hpow
  · exact .inl (Dvd.dvd.mul_left (Nat.pow_dvd_pow 2 hle) t)

theorem scaled32_eq (a : BitPattern32) : scaled32 a = patternUnits 23 (a.toNat % 2 ^ 31) := by
  have hbexp : (bexp32 a).toNat = a.toNat % 2 ^ 31 / 2 ^ 23 := by rw [bexp32_toNat]; omega
  have hsig : (sig32 a).toNat = a.toNat % 2 ^ 31 % 2 ^ 23 := by rw [sig32_toNat]; omega
  rw [scaled32, hbexp, hsig, patternUnits]

theorem scaled16_eq (h : BitPattern16) : scaled16 h = patternUnits 10 (h.toNat % 2 ^ 15) * 2 ^ 125 := by
  have hbexp : (bexp16 h).toNat = h.toNat % 2 ^ 15 / 2 ^ 10 := by rw [bexp16_toNat]; omega
  have hsig : (sig16 h).toNat = h.toNat % 2 ^ 15 % 2 ^ 10 := by rw [sig16_toNat]; omega
  rw [scaled16, hbexp, hsig, patternUnits]
  split_ifs with hzero
  · rfl
  · obtain ⟨k, hk⟩ := Nat.exists_eq_succ_of_ne_zero hzero
    rw [hk, Nat.succ_sub_one, Nat.mul_assoc, ← Nat.pow_add]

end Sys2Proof.Machine
end

section
/-! The magnitude of the result is the exact magnitude rounded to the grid that the input's exponent gives
(43_converter.md section 6): the subnormal grid up to exponent field 113, and one doubling more with each field
above. -/

namespace Sys2Proof.Machine

/-- How many doublings the result's grid has over the subnormal one. -/
def gridShift (a : BitPattern32) : Nat := (bexp32 a).toNat - 113

/-- The spacing of that grid in units of 2^-149. -/
def gridUnit (a : BitPattern32) : Nat := 2 ^ (gridShift a + 125)

/-- The exact magnitude rounded to the grid, in its spacings; `narrowMagnitude_eq` ties it to the converter. -/
def gridMain (a : BitPattern32) : Nat := roundTiesEven (scaled32 a) (gridUnit a)

theorem gridUnit_pos (a : BitPattern32) : 0 < gridUnit a := Nat.two_pow_pos _

/-- Shifting in two stages and keeping the lost bits as `sticky` is rounding at once (42_rounding.md R53). -/
theorem roundTiesEven_of_shift (v k : Nat) : roundTiesEven v (2 ^ k * 2 ^ 13) =
    v / 2 ^ k / 2 ^ 13 +
      if roundUp (v / 2 ^ k / 2 ^ 13) (v / 2 ^ k % 2 ^ 13) (decide (v % 2 ^ k ≠ 0)) then 1 else 0 := by
  have hrest : v % 2 ^ k < 2 ^ k := Nat.mod_lt v (Nat.two_pow_pos k)
  have hmod : v % (2 ^ k * 2 ^ 13) = v % 2 ^ k + 2 ^ k * (v / 2 ^ k % 2 ^ 13) := Nat.mod_mul
  simp only [roundTiesEven, roundUp_iff, ← Nat.div_div_eq_div_mul, hmod, decide_eq_true_eq]
  generalize v / 2 ^ k % 2 ^ 13 = r
  generalize v % 2 ^ k = l at hrest ⊢
  generalize 2 ^ k = d at hrest ⊢
  refine congrArg (_ + ·) (if_congr ?_ rfl rfl)
  obtain hlt | rfl | hgt := Nat.lt_trichotomy r 0x1000
  · have hbelow : d * (r + 1) ≤ d * 0x1000 := Nat.mul_le_mul_left d hlt
    rw [Nat.mul_add_one] at hbelow
    omega
  · omega
  · have habove : d * 0x1001 ≤ d * r := Nat.mul_le_mul_left d hgt
    omega

theorem roundTiesEven_eq_zero {v u : Nat} (h : 2 * v < u) : roundTiesEven v u = 0 := by
  rw [roundTiesEven, Nat.div_eq_of_lt (by omega), Nat.mod_eq_of_lt (by omega), if_neg (by omega)]

/-- Nothing is rounded up on an empty remainder, whatever was lost below it. -/
theorem roundUp_zero_remainder (main : Nat) (sticky : Bool) : roundUp main 0 sticky = false :=
  (roundUp_eq_false_iff main 0 sticky).mpr (.inl (by decide))

/-- The lost bits do not hold the implicit one until everything is shifted out, and then nothing is rounded up. -/
theorem roundUp_lost_bits {m : Nat} (hm : m < 2 ^ 23) (k main : Nat) :
    roundUp main ((2 ^ 23 + m) / 2 ^ k % 2 ^ 13) (decide (m % 2 ^ k ≠ 0)) =
      roundUp main ((2 ^ 23 + m) / 2 ^ k % 2 ^ 13) (decide ((2 ^ 23 + m) % 2 ^ k ≠ 0)) := by
  obtain hle | hgt := le_or_gt k 23
  · have hsplit : 2 ^ 23 + m = 2 ^ k * 2 ^ (23 - k) + m := by rw [← Nat.pow_add, Nat.add_sub_cancel' hle]
    rw [hsplit, Nat.mul_add_mod]
  · have hpow : 2 ^ 24 ≤ 2 ^ k := Nat.pow_le_pow_right (by decide) hgt
    rw [Nat.div_eq_of_lt (by omega), Nat.zero_mod, roundUp_zero_remainder, roundUp_zero_remainder]

/-- On the subnormal grid the candidate is rounded at once from the 24-bit significand. -/
theorem narrowMagnitude_of_low {a : BitPattern32} (h : (bexp32 a).toNat < 113) :
    narrowMagnitude a = min 0x7C00 (roundTiesEven (2 ^ 23 + (sig32 a).toNat)
      (2 ^ (113 - (bexp32 a).toNat) * 2 ^ 13)) := by
  have hlow : unbiased (bexp32 a).toNat 127 < -14 := by unfold unbiased; omega
  have hshift : (-(unbiased (bexp32 a).toNat 127 + 14)).toNat = 113 - (bexp32 a).toNat := by unfold unbiased; omega
  rw [narrowMagnitude, align_of_low hlow, Candidate.magnitude, alignSubnormal_e, alignSubnormal_main (sig32 a).isLt,
    alignSubnormal_remainder (sig32 a).isLt, alignSubnormal_sticky, hshift, roundUp_lost_bits (sig32 a).isLt,
    roundTiesEven_of_shift]
  exact congrArg (min 0x7C00) (by omega)

theorem scaled32_of_pos {a : BitPattern32} (h : (bexp32 a).toNat ≠ 0) :
    scaled32 a = (2 ^ 23 + (sig32 a).toNat) * 2 ^ ((bexp32 a).toNat - 1) := if_neg h

theorem gridUnit_of_low {a : BitPattern32} (h : (bexp32 a).toNat ≤ 113) : gridUnit a = 2 ^ 125 := by
  rw [gridUnit, gridShift, Nat.sub_eq_zero_of_le h]

theorem gridUnit_of_high {a : BitPattern32} (h : 113 ≤ (bexp32 a).toNat) :
    gridUnit a = 2 ^ 13 * 2 ^ ((bexp32 a).toNat - 1) := by
  rw [gridUnit, gridShift, ← Nat.pow_add]
  congr 1
  omega

/-- What `NARROW` computes, in one line: the exact magnitude rounded to its grid, the doublings of the grid added in the
exponent field, capped at the infinity. -/
theorem narrowMagnitude_eq (a : BitPattern32) : narrowMagnitude a = min 0x7C00 (gridShift a * 2 ^ 10 + gridMain a) := by
  have hsig : (sig32 a).toNat < 2 ^ 23 := (sig32 a).isLt
  obtain hlow | hhigh := Nat.lt_or_ge (bexp32 a).toNat 113
  · have hmain : gridMain a =
        roundTiesEven (2 ^ 23 + (sig32 a).toNat) (2 ^ (113 - (bexp32 a).toNat) * 2 ^ 13) := by
      rw [gridMain, gridUnit_of_low hlow.le]
      by_cases hzero : (bexp32 a).toNat = 0
      · rw [scaled32, if_pos hzero, hzero, roundTiesEven_eq_zero (by omega), roundTiesEven_eq_zero (by omega)]
      · have hunit : 2 ^ 125 = 2 ^ (113 - (bexp32 a).toNat) * 2 ^ 13 * 2 ^ ((bexp32 a).toNat - 1) := by
          rw [← Nat.pow_add, ← Nat.pow_add]
          congr 1
          omega
        rw [scaled32_of_pos hzero, hunit, roundTiesEven_mul_mul _ _ (Nat.two_pow_pos _)]
    rw [narrowMagnitude_of_low hlow, hmain, gridShift, Nat.sub_eq_zero_of_le hlow.le, Nat.zero_mul, Nat.zero_add]
  · rw [narrowMagnitude_of_high hhigh, gridMain, gridUnit_of_high hhigh, scaled32_of_pos (by omega),
      roundTiesEven_mul_mul _ _ (Nat.two_pow_pos _), gridShift, roundTiesEven]
    refine congrArg (min 0x7C00) ?_
    split_ifs <;> omega

/-- The exact magnitude is at most the largest mantissa plus one on its grid. -/
theorem scaled32_le (a : BitPattern32) : scaled32 a ≤ 2048 * gridUnit a := by
  have hsig : (sig32 a).toNat < 2 ^ 23 := (sig32 a).isLt
  by_cases hzero : (bexp32 a).toNat = 0
  · rw [scaled32, if_pos hzero, gridUnit_of_low (by omega)]
    omega
  · have hunit : 2 ^ 13 * 2 ^ ((bexp32 a).toNat - 1) ≤ gridUnit a := by
      rw [gridUnit, gridShift, ← Nat.pow_add]
      exact Nat.pow_le_pow_right (by decide) (by omega)
    have hmain : (2 ^ 23 + (sig32 a).toNat) * 2 ^ ((bexp32 a).toNat - 1) ≤ 2 ^ 24 * 2 ^ ((bexp32 a).toNat - 1) :=
      Nat.mul_le_mul_right _ (by omega)
    rw [scaled32_of_pos hzero]
    omega

/-- Above the subnormal grid the exact magnitude is at least the least mantissa with a leading bit. -/
theorem le_scaled32 {a : BitPattern32} (h : gridShift a ≠ 0) : 1024 * gridUnit a ≤ scaled32 a := by
  have hhigh : 113 < (bexp32 a).toNat := by unfold gridShift at h; omega
  have hmain : 2 ^ 23 * 2 ^ ((bexp32 a).toNat - 1) ≤ (2 ^ 23 + (sig32 a).toNat) * 2 ^ ((bexp32 a).toNat - 1) :=
    Nat.mul_le_mul_right _ (Nat.le_add_right _ _)
  rw [scaled32_of_pos (by omega), gridUnit_of_high hhigh.le]
  omega

theorem gridMain_le (a : BitPattern32) : gridMain a ≤ 2048 :=
  calc gridMain a ≤ roundTiesEven (2048 * gridUnit a) (gridUnit a) :=
        roundTiesEven_mono (gridUnit_pos a) (scaled32_le a)
    _ = 2048 := roundTiesEven_mul_self 2048 (gridUnit_pos a)

theorem le_gridMain {a : BitPattern32} (h : gridShift a ≠ 0) : 1024 ≤ gridMain a :=
  calc 1024 = roundTiesEven (1024 * gridUnit a) (gridUnit a) := (roundTiesEven_mul_self 1024 (gridUnit_pos a)).symm
    _ ≤ gridMain a := roundTiesEven_mono (gridUnit_pos a) (le_scaled32 h)

/-- A larger magnitude is on the same grid, where rounding is monotone, or on a later one, whose mantissas go on where
the earlier grid's end. -/
theorem narrowMagnitude_mono {a b : BitPattern32} (h : a.toNat % 2 ^ 31 ≤ b.toNat % 2 ^ 31) :
    narrowMagnitude a ≤ narrowMagnitude b := by
  have hshift : gridShift a ≤ gridShift b := by
    rw [gridShift, gridShift, bexp32_toNat, bexp32_toNat]
    omega
  have hmain_le := gridMain_le a
  rw [narrowMagnitude_eq, narrowMagnitude_eq]
  obtain heq | hlt := Nat.eq_or_lt_of_le hshift
  · have hscaled : scaled32 a ≤ scaled32 b := by
      rw [scaled32_eq, scaled32_eq]
      exact (patternUnits_strictMono 23).monotone h
    have hmain : gridMain a ≤ gridMain b := by
      rw [gridMain, gridMain, gridUnit, heq]
      exact roundTiesEven_mono (gridUnit_pos b) hscaled
    omega
  · have hmain_ge := le_gridMain (a := b) (by omega)
    omega

/-- The NaNs are the magnitudes above the infinity's (41_classifier.md R45). -/
theorem class32_eq_nan_iff (a : BitPattern32) : class32 a = .nan ↔ 0x7F800000 < a.toNat % 2 ^ 31 := by
  rw [class32_eq_iff_classRow, bexp32_toNat, sig32_toNat]
  simp only [ClassRow]
  omega

theorem narrowMagnitude_le_of_le {a b : BitPattern32} {k : Nat} (hb : narrowMagnitude b = k)
    (h : a.toNat % 2 ^ 31 ≤ b.toNat % 2 ^ 31) : narrowMagnitude a ≤ k := hb ▸ narrowMagnitude_mono h

theorem le_narrowMagnitude_of_le {a b : BitPattern32} {k : Nat} (hb : narrowMagnitude b = k)
    (h : b.toNat % 2 ^ 31 ≤ a.toNat % 2 ^ 31) : k ≤ narrowMagnitude a := hb ▸ narrowMagnitude_mono h

/-- Between two inputs with one result there is no other result. -/
theorem narrowMagnitude_eq_of_between {a b c : BitPattern32} {k : Nat} (hb : narrowMagnitude b = k)
    (hc : narrowMagnitude c = k) (hlow : b.toNat % 2 ^ 31 ≤ a.toNat % 2 ^ 31)
    (hhigh : a.toNat % 2 ^ 31 ≤ c.toNat % 2 ^ 31) : narrowMagnitude a = k :=
  Nat.le_antisymm (narrowMagnitude_le_of_le hc hhigh) (le_narrowMagnitude_of_le hb hlow)

theorem narrowMagnitude_of_tiny {a : BitPattern32} (h : a.toNat % 2 ^ 31 ≤ 0x33000000) : narrowMagnitude a = 0 :=
  Nat.le_zero.mp (narrowMagnitude_le_of_le (b := 0x33000000#32) (by decide) h)

theorem narrowMagnitude_of_promoted {a : BitPattern32} (hlow : 0x387FE000 ≤ a.toNat % 2 ^ 31)
    (hhigh : a.toNat % 2 ^ 31 ≤ 0x38801000) : narrowMagnitude a = 0x400 :=
  narrowMagnitude_eq_of_between (b := 0x387FE000#32) (c := 0x38801000#32) (by decide) (by decide) hlow hhigh

/-- From the smallest normal magnitude on, the result is the rebiased magnitude bits without the lower thirteen,
incremented by the decision of R51 on those. -/
theorem narrowMagnitude_of_normal {a : BitPattern32} (h : 0x38800000 ≤ a.toNat % 2 ^ 31) :
    narrowMagnitude a = min 0x7C00 ((a.toNat % 2 ^ 31 - 112 * 2 ^ 23) / 2 ^ 13 +
      if a.toNat % 2 ^ 13 > 0x1000 ∨ (a.toNat % 2 ^ 13 = 0x1000 ∧ a.toNat / 2 ^ 13 % 2 = 1) then 1 else 0) := by
  have hbexp : 113 ≤ (bexp32 a).toNat := by rw [bexp32_toNat]; omega
  rw [narrowMagnitude_of_high hbexp, bexp32_toNat, sig32_toNat]
  refine congrArg (min 0x7C00) ?_
  split_ifs <;> omega

/-- Two inputs of one sign and one magnitude of the result have one result. -/
theorem narrow_eq_of_magnitude {a b : BitPattern32} (ha : class32 a ≠ .nan) (hb : class32 b ≠ .nan)
    (hsign : a.toNat / 2 ^ 31 = b.toNat / 2 ^ 31) (hmag : narrowMagnitude a = narrowMagnitude b) :
    narrow a = narrow b := by
  apply BitVec.eq_of_toNat_eq
  rw [narrow_toNat_of_not_nan ha, narrow_toNat_of_not_nan hb, sign32_toNat, sign32_toNat, hsign, hmag]

end Sys2Proof.Machine

namespace Sys2Proof

open Machine

/-- Settles O37: the magnitude is below that of half the smallest subnormal, which rounds to zero. -/
theorem narrowOfSmallIsSignedZero : Obligations.NarrowOfSmallIsSignedZero := by
  unfold Obligations.NarrowOfSmallIsSignedZero
  intro a hbexp
  rw [bexp32_toNat] at hbexp
  have hnan : class32 a ≠ .nan := by rw [Ne, class32_eq_nan_iff]; omega
  rw [narrow_toNat_of_not_nan hnan, narrowMagnitude_of_tiny (by omega), sign32_toNat, Nat.add_zero]

/-- Settles O38: the result is monotone in the magnitude, so each row follows from its ends. -/
theorem narrowFollowsTheRangeTable : Obligations.NarrowFollowsTheRangeTable := by
  unfold Obligations.NarrowFollowsTheRangeTable
  rintro a _ _ rfl rfl
  rw [narrow_toNat_mod]
  have hnumber : ¬ 0x7F800000 < a.toNat % 2 ^ 31 → resultMagnitude Config.nan16Sig a = narrowMagnitude a :=
    fun h => resultMagnitude_of_not_nan (mt (class32_eq_nan_iff a).mp h) _
  have hinfinity := narrowMagnitude_eq_infinity_iff a
  refine ⟨fun h => ?_, fun hlow hhigh => ?_, fun hlow hhigh => ?_, fun hlow hhigh => ?_, fun hlow hhigh => ?_,
    fun hlow hhigh => ?_, fun hlow hhigh => ?_, fun h => ?_, fun h => ?_⟩
  · rw [hnumber (by omega)]
    exact narrowMagnitude_of_tiny h
  · rw [hnumber (by omega)]
    exact narrowMagnitude_eq_of_between (b := 0x33000001#32) (c := 0x33BFFFFF#32) (by decide) (by decide) hlow hhigh
  · rw [hnumber (by omega)]
    exact narrowMagnitude_eq_of_between (b := 0x33C00000#32) (c := 0x34200000#32) (by decide) (by decide) hlow hhigh
  · rw [hnumber (by omega)]
    exact ⟨le_narrowMagnitude_of_le (b := 0x34200001#32) (by decide) hlow,
      narrowMagnitude_le_of_le (b := 0x387FDFFF#32) (by decide) hhigh⟩
  · rw [hnumber (by omega)]
    exact narrowMagnitude_of_promoted hlow hhigh
  · rw [hnumber (by omega)]
    exact ⟨le_narrowMagnitude_of_le (b := 0x38801001#32) (by decide) hlow,
      narrowMagnitude_le_of_le (b := 0x477FEFFF#32) (by decide) hhigh⟩
  · rw [hnumber (by omega)]
    exact hinfinity.mpr hlow
  · rw [hnumber (by omega)]
    exact hinfinity.mpr (by omega)
  · exact resultMagnitude_of_nan ((class32_eq_nan_iff a).mpr (by omega)) _

/-- Settles O40: rounding to a grid is monotone, and so is the change from a grid to the next. -/
theorem narrowIsMonotone : Obligations.NarrowIsMonotone := by
  unfold Obligations.NarrowIsMonotone
  intro a b ha hb h
  rw [narrow_toNat_mod, narrow_toNat_mod, resultMagnitude_of_not_nan ha, resultMagnitude_of_not_nan hb]
  exact narrowMagnitude_mono h

/-- Settles O43: a tie is decided by bit 13, and half a unit away from it nothing is left to round. -/
theorem narrowTiesGoToEven : Obligations.NarrowTiesGoToEven := by
  unfold Obligations.NarrowTiesGoToEven
  intro a hlow hhigh htie
  have ha := a.isLt
  have hnan : ∀ b : BitPattern32, b.toNat % 2 ^ 31 ≤ 0x7F800000 → class32 b ≠ .nan := by
    intro b hb
    rw [Ne, class32_eq_nan_iff]
    omega
  constructor
  · intro heven
    have hdown : (a - 0x1000#32).toNat = a.toNat - 0x1000 := by
      rw [BitVec.toNat_sub_of_le]
      · rfl
      · rw [BitVec.le_def]
        exact le_trans (by decide) (hlow.trans (Nat.mod_le _ _))
    refine narrow_eq_of_magnitude (hnan a (by omega)) (hnan _ (by omega)) (by omega) ?_
    rw [narrowMagnitude_of_normal hlow, narrowMagnitude_of_normal (by omega), hdown, if_neg (by omega),
      if_neg (by omega)]
    exact congrArg (min 0x7C00) (by omega)
  · intro hodd
    have hup : (a + 0x1000#32).toNat = a.toNat + 0x1000 := by
      rw [BitVec.toNat_add, BitVec.toNat_ofNat]
      omega
    refine narrow_eq_of_magnitude (hnan a (by omega)) (hnan _ (by omega)) (by omega) ?_
    rw [narrowMagnitude_of_normal hlow, narrowMagnitude_of_normal (by omega), hup, if_pos (by omega), if_neg (by omega)]
    exact congrArg (min 0x7C00) (by omega)

/-- Settles O44: the magnitude is the smallest normal one. -/
theorem narrowPromotesToTheSmallestNormal : Obligations.NarrowPromotesToTheSmallestNormal := by
  unfold Obligations.NarrowPromotesToTheSmallestNormal
  intro a hlow hhigh
  have hnan : class32 a ≠ .nan := by rw [Ne, class32_eq_nan_iff]; omega
  have hresult := narrow_toNat_of_not_nan hnan
  rw [narrowMagnitude_of_promoted hlow (by omega)] at hresult
  constructor
  · rw [hresult, assemble16_eq_add (by decide) (by decide)]
    rfl
  · rw [class16_eq_iff_classRow, bexp16_toNat, hresult]
    simp only [ClassRow]
    omega

end Sys2Proof
end

section
/-! Correct rounding (43_converter.md sections 1 and 6): the finite 16-bit patterns are multiples of the grid's unit
or lie below the grid, so the rounded multiple is the nearest of them. -/

namespace Sys2Proof.Machine

/-- The result of an input below the threshold of saturation is not capped. -/
theorem narrowMagnitude_of_below {a : BitPattern32} (h : a.toNat % 2 ^ 31 < 0x477FF000) :
    narrowMagnitude a = gridShift a * 2 ^ 10 + gridMain a ∧ narrowMagnitude a < 0x7C00 := by
  have hne := mt (narrowMagnitude_eq_infinity_iff a).mp (Nat.not_le.mpr h)
  have heq := narrowMagnitude_eq a
  omega

/-- The result's own exact magnitude is the rounded multiple of the grid's unit. -/
theorem patternUnits_narrowMagnitude {a : BitPattern32} (h : a.toNat % 2 ^ 31 < 0x477FF000) :
    patternUnits 10 (narrowMagnitude a) * 2 ^ 125 = gridMain a * gridUnit a := by
  obtain ⟨heq, -⟩ := narrowMagnitude_of_below h
  have hlead : gridShift a = 0 ∨ 2 ^ 10 ≤ gridMain a := (eq_or_ne (gridShift a) 0).imp_right le_gridMain
  rw [heq, patternUnits_grid hlead (gridMain_le a), gridUnit, Nat.pow_add, Nat.mul_assoc]

theorem scaled16_narrow {a : BitPattern32} (hnan : class32 a ≠ .nan) (h : a.toNat % 2 ^ 31 < 0x477FF000) :
    scaled16 (narrow a) = gridMain a * gridUnit a := by
  rw [scaled16_eq, narrow_toNat_mod, resultMagnitude_of_not_nan hnan, patternUnits_narrowMagnitude h]

theorem gridMain_nearest_of_apart {a : BitPattern32} {x : Int}
    (hx : x = gridMain a * gridUnit a ∨ x ≤ gridMain a * gridUnit a - gridUnit a ∨
      gridMain a * gridUnit a + gridUnit a ≤ x) :
    |(gridMain a * gridUnit a : Int) - scaled32 a| ≤ |x - scaled32 a| ∧
      (|(gridMain a * gridUnit a : Int) - scaled32 a| = |x - scaled32 a| → x ≠ gridMain a * gridUnit a →
        gridMain a % 2 = 0) :=
  roundTiesEven_nearest (scaled32 a) (gridUnit_pos a) hx

/-- The rounded multiple is nearest among all multiples of the unit and all numbers below the grid. -/
theorem gridMain_nearest (a : BitPattern32) {x : Int}
    (hx : (gridUnit a : Int) ∣ x ∨ x < 1024 * gridUnit a ∧ gridShift a ≠ 0) :
    |(gridMain a * gridUnit a : Int) - scaled32 a| ≤ |x - scaled32 a| ∧
      (|(gridMain a * gridUnit a : Int) - scaled32 a| = |x - scaled32 a| → x ≠ gridMain a * gridUnit a →
        gridMain a % 2 = 0) := by
  have hunit : (0 : Int) < gridUnit a := Int.natCast_pos.mpr (gridUnit_pos a)
  obtain hdvd | ⟨hbelow, hshift⟩ := hx
  · obtain ⟨n, rfl⟩ := hdvd
    rw [Int.mul_comm (gridUnit a : Int) n]
    exact gridMain_nearest_of_apart (mul_eq_or_apart n _ _ hunit)
  · have hscaled : (1024 * gridUnit a : Int) ≤ scaled32 a := mod_cast le_scaled32 hshift
    obtain heq | hgt := Nat.eq_or_lt_of_le (le_gridMain hshift)
    · have hstrict : |(gridMain a * gridUnit a : Int) - scaled32 a| < |x - scaled32 a| := by
        rw [← heq, abs_of_nonpos (by push_cast; omega), abs_of_nonpos (by omega)]
        push_cast
        omega
      exact ⟨hstrict.le, fun htie => absurd htie hstrict.ne⟩
    · have hstep : (1025 * gridUnit a : Int) ≤ gridMain a * gridUnit a := mod_cast Nat.mul_le_mul_right _ hgt
      exact gridMain_nearest_of_apart (.inr (.inl (by omega)))

/-- Every 16-bit pattern is a multiple of the unit or below the grid, with either sign. -/
theorem scaled16_dvd_or_lt (a : BitPattern32) (g : BitPattern16) {x : Int} (hx : x = scaled16 g ∨ x = -scaled16 g) :
    (gridUnit a : Int) ∣ x ∨ x < 1024 * gridUnit a ∧ gridShift a ≠ 0 := by
  obtain hzero | hshift := eq_or_ne (gridShift a) 0
  · have hdvd : gridUnit a ∣ scaled16 g := by
      rw [scaled16_eq, gridUnit, hzero, Nat.zero_add]
      exact Nat.dvd_mul_left _ _
    refine .inl ?_
    obtain rfl | rfl := hx
    · exact mod_cast hdvd
    · exact (Int.dvd_neg).mpr (mod_cast hdvd)
  · have hunit : gridUnit a = 2 ^ gridShift a * 2 ^ 125 := Nat.pow_add ..
    obtain hdvd | hlt := patternUnits_dvd_or_lt 10 (g.toNat % 2 ^ 15) (gridShift a)
    · have hdvd : gridUnit a ∣ scaled16 g := by
        rw [scaled16_eq, hunit]
        exact Nat.mul_dvd_mul_right hdvd _
      refine .inl ?_
      obtain rfl | rfl := hx
      · exact mod_cast hdvd
      · exact (Int.dvd_neg).mpr (mod_cast hdvd)
    · have hlt : scaled16 g < 1024 * gridUnit a := by
        rw [scaled16_eq, hunit, ← Nat.mul_assoc]
        exact Nat.mul_lt_mul_of_pos_right hlt (Nat.two_pow_pos _)
      exact .inr ⟨by omega, hshift⟩

theorem signFactor_cases (s : BitVec 1) : signFactor s = 1 ∨ signFactor s = -1 := by
  unfold signFactor
  split_ifs
  · exact .inl rfl
  · exact .inr rfl

theorem abs_signFactor (s : BitVec 1) : |signFactor s| = 1 := by
  obtain h | h := signFactor_cases s <;> rw [h] <;> simp

/-- Two numbers with one sign factor are as far apart as their magnitudes. -/
theorem abs_signFactor_sub (s : BitVec 1) (x y : Int) :
    |signFactor s * ((x : ℚ) / 2 ^ 149) - signFactor s * ((y : ℚ) / 2 ^ 149)| = ((|x - y| : Int) : ℚ) / 2 ^ 149 := by
  rw [← mul_sub, abs_mul, abs_signFactor, one_mul, ← sub_div, abs_div, abs_of_pos (by positivity : (0 : ℚ) < 2 ^ 149)]
  push_cast
  rfl

theorem value32_eq_int (a : BitPattern32) :
    value32 a = signFactor (sign32 a) * (((scaled32 a : Int) : ℚ) / 2 ^ 149) := by
  rw [value32_eq_scaled]
  rfl

/-- The number of a 16-bit pattern under another sign's factor: the magnitude takes the difference of the signs. -/
theorem value16_eq_int (s : BitVec 1) (g : BitPattern16) : ∃ x : Int, (x = scaled16 g ∨ x = -scaled16 g) ∧
    (sign16 g = s → x = scaled16 g) ∧ value16 g = signFactor s * ((x : ℚ) / 2 ^ 149) := by
  rw [value16_eq_scaled]
  by_cases hsign : sign16 g = s
  · exact ⟨scaled16 g, .inl rfl, fun _ => rfl, by rw [hsign]; rfl⟩
  · refine ⟨-scaled16 g, .inr rfl, fun h => absurd h hsign, ?_⟩
    have hfactor : signFactor (sign16 g) = -signFactor s := by
      revert hsign
      generalize sign16 g = t
      revert s t
      decide
    rw [hfactor]
    push_cast
    ring

theorem abs_value32 (a : BitPattern32) : |value32 a| = (scaled32 a : ℚ) / 2 ^ 149 := by
  rw [value32_eq_scaled, abs_mul, abs_signFactor, one_mul, abs_of_nonneg (by positivity)]

/-- 65520, the least magnitude that saturates, in units of 2^-149. -/
theorem patternUnits_threshold : patternUnits 23 0x477FF000 = 65520 * 2 ^ 149 := by decide

/-- Nearness of the result among the finite 16-bit patterns, ties to an even significand. -/
theorem narrow_nearest {a : BitPattern32} (hnan : class32 a ≠ .nan) (h : a.toNat % 2 ^ 31 < 0x477FF000)
    (g : BitPattern16) :
    |value16 (narrow a) - value32 a| ≤ |value16 g - value32 a| ∧
      (|value16 (narrow a) - value32 a| = |value16 g - value32 a| → value16 g ≠ value16 (narrow a) →
        (sig16 (narrow a)).toNat % 2 = 0) := by
  have hpos : (0 : ℚ) < 2 ^ 149 := by positivity
  obtain ⟨x, hx, -, hg⟩ := value16_eq_int (sign32 a) g
  obtain ⟨y, -, hy, hresult⟩ := value16_eq_int (sign32 a) (narrow a)
  have hy : y = gridMain a * gridUnit a := by
    rw [hy (sign16_narrowWith _ a), scaled16_narrow hnan h]
    push_cast
    rfl
  obtain ⟨hle, htie⟩ := gridMain_nearest a (scaled16_dvd_or_lt a g hx)
  rw [← hy] at hle htie
  rw [hg, hresult, value32_eq_int, abs_signFactor_sub, abs_signFactor_sub]
  refine ⟨?_, fun heq hne => ?_⟩
  · gcongr
  · have heven : gridMain a % 2 = 0 := by
      apply htie
      · exact mod_cast (div_left_inj' hpos.ne').mp heq
      · rintro rfl
        exact hne rfl
    obtain ⟨hmag, -⟩ := narrowMagnitude_of_below h
    have hsig : (sig16 (narrow a)).toNat = narrowMagnitude a % 2 ^ 10 := by
      rw [← resultMagnitude_of_not_nan hnan Config.nan16Sig]
      exact sig16_narrowWith _ a
    omega

/-- An input whose exact magnitude a finite 16-bit pattern has is that pattern's: rounding has nothing to do. -/
theorem narrow_eq_of_scaled_eq {a : BitPattern32} {h : BitPattern16} (hfinite : h.toNat % 2 ^ 15 < 0x7C00)
    (hsign : sign32 a = sign16 h) (hscaled : scaled32 a = scaled16 h) : narrow a = h := by
  have hunits := hscaled
  rw [scaled32_eq, scaled16_eq] at hunits
  have hbelow : a.toNat % 2 ^ 31 < 0x477FF000 := by
    by_contra hge
    have hlarge := (patternUnits_strictMono 23).monotone (Nat.not_lt.mp hge)
    have hsmall := (patternUnits_strictMono 10).monotone (Nat.le_of_lt_succ hfinite)
    rw [patternUnits_threshold] at hlarge
    have hmax : patternUnits 10 0x7BFF = 65504 * 2 ^ 24 := by decide
    omega
  have hnan : class32 a ≠ .nan := by rw [Ne, class32_eq_nan_iff]; omega
  have hmain : gridMain a * gridUnit a = scaled32 a := by
    obtain ⟨hle, -⟩ := gridMain_nearest a (scaled16_dvd_or_lt a h (.inl rfl))
    rw [hscaled, sub_self, abs_zero, abs_nonpos_iff, sub_eq_zero] at hle
    zify
    rw [hle, hscaled]
  have hmag : narrowMagnitude a = h.toNat % 2 ^ 15 := by
    apply (patternUnits_strictMono 10).injective
    apply Nat.mul_right_cancel (Nat.two_pow_pos 125)
    rw [patternUnits_narrowMagnitude hbelow, hmain, hscaled, scaled16_eq]
  apply BitVec.eq_of_toNat_eq
  rw [narrow_toNat_of_not_nan hnan, hmag, hsign, sign16_toNat]
  omega

theorem finite16_iff (h : BitPattern16) : finite16 h = true ↔ h.toNat % 2 ^ 15 < 0x7C00 := by
  rw [finite16, decide_eq_true_iff, bexp16_toNat, Config.allOne16]
  omega

theorem finite32_iff (a : BitPattern32) : finite32 a = true ↔ a.toNat % 2 ^ 31 < 0x7F800000 := by
  rw [finite32, decide_eq_true_iff, bexp32_toNat, Config.allOne32]
  omega

/-- Equal numbers with equal signs have equal magnitudes. -/
theorem scaled_eq_of_value_eq {a : BitPattern32} {h : BitPattern16} (hsign : sign32 a = sign16 h)
    (hvalue : value32 a = value16 h) : scaled32 a = scaled16 h := by
  have hfactor : signFactor (sign16 h) ≠ 0 := by obtain hs | hs := signFactor_cases (sign16 h) <;> rw [hs] <;> norm_num
  rw [value32_eq_scaled, value16_eq_scaled, hsign] at hvalue
  have hscale : (2 ^ 149 : ℚ) ≠ 0 := by positivity
  have hcast : (scaled32 a : ℚ) = scaled16 h := (div_left_inj' hscale).mp (mul_left_cancel₀ hfactor hvalue)
  exact mod_cast hcast

/-- The 32-bit pattern of a Normal 16-bit one: exponent field rebiased by 112, significand shifted by 13
(95_test_vectors.md section 3.5). -/
theorem scaled32_of_rebiased {a : BitPattern32} {h : BitPattern16} (hnormal : (bexp16 h).toNat ≠ 0)
    (hbexp : (bexp32 a).toNat = (bexp16 h).toNat + 112) (hsig : (sig32 a).toNat = (sig16 h).toNat * 2 ^ 13) :
    scaled32 a = scaled16 h := by
  have hpow : 2 ^ ((bexp16 h).toNat + 124) = 2 ^ 13 * 2 ^ ((bexp16 h).toNat + 111) := by
    rw [← Nat.pow_add]
    congr 1
    omega
  rw [scaled32_of_pos (by omega), scaled16, if_neg hnormal, hbexp, hsig, hpow, Nat.add_sub_assoc (by decide)]
  ring

end Sys2Proof.Machine

namespace Sys2Proof

open Machine

/-- Settles O41: below the threshold the result is the nearest multiple of the grid's unit; from the threshold on the
exact magnitude is at least 65520 and the result is the infinity. -/
theorem narrowIsCorrectlyRounded : Obligations.NarrowIsCorrectlyRounded := by
  unfold Obligations.NarrowIsCorrectlyRounded
  intro a hnan
  have hresult := narrow_toNat_of_not_nan hnan
  refine ⟨sign16_narrowWith _ a, fun hbelow => ⟨?_, ?_, ?_, fun g _ => narrow_nearest hnan hbelow g⟩,
    fun habove => ⟨fun _ => ?_, ?_⟩⟩
  · exact (finite32_iff a).mpr (by omega)
  · have hlt := patternUnits_strictMono 23 hbelow
    rw [patternUnits_threshold, ← scaled32_eq] at hlt
    rw [abs_value32, div_lt_iff₀ (by positivity)]
    exact mod_cast hlt
  · obtain ⟨-, hlt⟩ := narrowMagnitude_of_below hbelow
    rw [finite16_iff, narrow_toNat_mod, resultMagnitude_of_not_nan hnan]
    exact hlt
  · have hle := (patternUnits_strictMono 23).monotone habove
    rw [patternUnits_threshold, ← scaled32_eq] at hle
    rw [abs_value32, le_div_iff₀ (by positivity)]
    exact mod_cast hle
  · rw [hresult, (narrowMagnitude_eq_infinity_iff a).mpr habove]

/-- Settles O42: equal numbers are equal integers, which rounding keeps; a rebiased Normal is the same integer. -/
theorem narrowIsExactOnRepresentableValues : Obligations.NarrowIsExactOnRepresentableValues := by
  unfold Obligations.NarrowIsExactOnRepresentableValues
  constructor
  · intro a h _ hfinite hsign hvalue
    exact narrow_eq_of_scaled_eq ((finite16_iff h).mp hfinite) hsign (scaled_eq_of_value_eq hsign hvalue)
  · intro a h hnormal ha
    have hsig := (sig16 h).isLt
    rw [class16_eq_iff_classRow] at hnormal
    obtain ⟨hlow, hhigh⟩ := hnormal
    rw [assemble32_eq_add (by omega) (by omega)] at ha
    have hsign : sign32 a = sign16 h := by
      apply BitVec.eq_of_toNat_eq
      rw [sign32_toNat]
      omega
    have hscaled : scaled32 a = scaled16 h :=
      scaled32_of_rebiased (by omega) (by rw [bexp32_toNat]; omega) (by rw [sig32_toNat]; omega)
    have hfinite : finite16 h = true := decide_eq_true hhigh.ne
    exact ⟨narrow_eq_of_scaled_eq ((finite16_iff h).mp hfinite) hsign hscaled,
      by rw [value32_eq_scaled, value16_eq_scaled, hsign, hscaled]⟩

end Sys2Proof
end

section
/-! The one piece of pseudocode and its clamped form (43_converter.md R67) against the converter: the piece is cut where
the converter is, into what steps 3 and 4 give and what steps 5 to 8 make of it. -/

namespace Sys2Proof.Machine

/-- Steps 3 and 4 of the piece, with step 4 as a parameter; `narrowPieceWith_eq` ties it to the piece. -/
def pieceCandidate (step4 : Nat → Nat → Nat × Bool) (m E : Nat) : Candidate :=
  if (E : Int) - 127 < -14 then
    ⟨-14, (step4 m (113 - E)).1 >>> 13, (step4 m (113 - E)).1 &&& 0x1FFF, (step4 m (113 - E)).2⟩
  else ⟨(E : Int) - 127, (m >>> 13) ||| (1 <<< 10), m &&& 0x1FFF, false⟩

/-- Step 5 of the piece. -/
def pieceIncremented (c : Candidate) : Nat :=
  if c.remainder > 0x1000 then c.main + 1
  else if c.remainder = 0x1000 ∧ (c.main % 2 = 1 ∨ c.sticky = true) then c.main + 1
  else c.main

/-- Steps 7 and 8 of the piece. -/
def pieceEmit (s : Nat) (e : Int) (main : Nat) : Nat :=
  if e > 15 then (s <<< 15) ||| 0x7C00
  else if main < 0x400 ∧ e = -14 then (s <<< 15) ||| (main &&& 0x3FF)
  else (s <<< 15) ||| (((e + 15).toNat &&& 0x1F) <<< 10) ||| (main &&& 0x3FF)

/-- Steps 5 to 8 of the piece. -/
def pieceFinish (s : Nat) (c : Candidate) : Nat :=
  pieceEmit s (if pieceIncremented c > 0x7FF then c.e + 1 else c.e)
    (if pieceIncremented c > 0x7FF then pieceIncremented c >>> 1 else pieceIncremented c)

theorem pieceEmit_eq (s : Nat) (e : Int) (main : Nat) : pieceEmit s e main = emit s e main := by
  simp only [pieceEmit, emit, assemble16, Nat.zero_shiftLeft, Nat.or_zero, Config.emax16, Config.emin16]
  rfl

theorem pieceIncremented_eq (c : Candidate) :
    pieceIncremented c = c.main + if roundUp c.main c.remainder c.sticky then 1 else 0 := by
  simp only [pieceIncremented, roundUp_iff]
  by_cases habove : c.remainder > 0x1000
  · rw [if_pos habove, if_pos (.inl habove)]
  · by_cases htie : c.remainder = 0x1000 ∧ (c.main % 2 = 1 ∨ c.sticky = true)
    · rw [if_neg habove, if_pos htie, if_pos (.inr htie)]
    · rw [if_neg habove, if_neg htie, if_neg (not_or.mpr ⟨habove, htie⟩), Nat.add_zero]

theorem pieceFinish_eq (s : Nat) (c : Candidate) : pieceFinish s c = finish s c := by
  simp only [pieceFinish, pieceEmit_eq, pieceIncremented_eq, finish, roundMain]
  split_ifs <;> simp

/-- The piece: its NaN exit, or its own rounding and encoding of its own candidate. -/
theorem narrowPieceWith_eq (step4 : Nat → Nat → Nat × Bool) (nanSig : Nat) (a : BitPattern32) :
    narrowPieceWith step4 nanSig a.toNat =
      if class32 a = .nan then assemble16 (sign32 a).toNat 31 nanSig
      else finish (sign32 a).toNat (pieceCandidate step4 (sig32 a).toNat (bexp32 a).toNat) := by
  have hnan : class32 a = .nan ↔ (bexp32 a).toNat = 255 ∧ (sig32 a).toNat ≠ 0 := class32_eq_iff_classRow a .nan
  rw [← pieceFinish_eq, if_congr hnan rfl rfl, sign32_toNat, bexp32_toNat, sig32_toNat]
  by_cases hlow : ((a.toNat / 2 ^ 23 % 2 ^ 8 : Nat) : Int) - 127 < -14
  · simp only [narrowPieceWith, pieceCandidate, if_pos hlow]
    rfl
  · simp only [narrowPieceWith, pieceCandidate, if_neg hlow]
    rfl

/-- Step 4 as written is the alignment; the piece writes the shift amount without the exponent (log 21). -/
theorem pieceCandidate_full (m E : Nat) : pieceCandidate step4Full m E = align m (unbiased E 127) := by
  have hshift : (-(unbiased E 127 + 14)).toNat = 113 - E := by unfold unbiased; omega
  have hlost : ∀ x : Nat, (x != 0) = decide (x ≠ 0) := fun x => by rw [Bool.eq_iff_iff]; simp
  unfold pieceCandidate
  split_ifs with hlow
  · rw [align_of_low (e := unbiased E 127) hlow, alignSubnormal, hshift, lostBits, hlost]
    rfl
  · rw [align_of_high (e := unbiased E 127) (Int.not_lt.mp hlow)]
    rfl

/-- A shift by 24 or more leaves nothing of a 24-bit significand and loses every bit of the 23 stored ones. -/
theorem step4Clamped_eq {m : Nat} (hm : m < 2 ^ 23) (shift : Nat) : step4Clamped m shift = step4Full m shift := by
  unfold step4Clamped
  split_ifs with hlarge
  · have hpow : 2 ^ 24 ≤ 2 ^ shift := Nat.pow_le_pow_right (by decide) hlarge
    rw [step4Full, sig24_eq hm, Nat.shiftRight_eq_div_pow, Nat.div_eq_of_lt (by omega), Nat.shiftLeft_eq, Nat.one_mul,
      and_low, Nat.mod_eq_of_lt (by omega)]
  · rfl

theorem narrowNat_eq (nanSig : Nat) (a : BitPattern32) : narrowNat nanSig a =
    if class32 a = .nan then assemble16 (sign32 a).toNat 31 nanSig
    else finish (sign32 a).toNat (align (sig32 a).toNat (unbiased (bexp32 a).toNat 127)) := rfl

theorem narrowPiece_eq (nanSig : Nat) (a : BitPattern32) : narrowPiece nanSig a.toNat = narrowNat nanSig a := by
  rw [narrowPiece, narrowPieceWith_eq, pieceCandidate_full, narrowNat_eq]

theorem narrowClamped_eq (nanSig : Nat) (a : BitPattern32) :
    narrowClamped nanSig a.toNat = narrowPiece nanSig a.toNat := by
  have hcandidate : pieceCandidate step4Clamped (sig32 a).toNat (bexp32 a).toNat =
      pieceCandidate step4Full (sig32 a).toNat (bexp32 a).toNat := by
    unfold pieceCandidate
    rw [step4Clamped_eq (sig32 a).isLt]
  rw [narrowClamped, narrowPiece, narrowPieceWith_eq, narrowPieceWith_eq, hcandidate]

/-- The exact result fits 16 bits, so the pattern is the number. -/
theorem narrowNat_lt (nanSig : BitVec 10) (a : BitPattern32) : narrowNat nanSig.toNat a < 2 ^ 16 := by
  have hsign := (sign32 a).isLt
  have hsig := nanSig.isLt
  obtain hnan | hnan := eq_or_ne (class32 a) .nan
  · rw [narrowNat_of_nan hnan, assemble16_eq_add (by decide) hsig]
    omega
  · have hmag := (align (sig32 a).toNat (unbiased (bexp32 a).toNat 127)).magnitude_le
    rw [narrowNat_of_not_nan hnan, finish_eq_add _ (align_inRange (sig32 a).isLt _)]
    omega

theorem narrowWith_toNat_eq_narrowNat (nanSig : BitVec 10) (a : BitPattern32) :
    (narrowWith nanSig a).toNat = narrowNat nanSig.toNat a := by
  rw [narrowWith, BitVec.toNat_ofNat, Nat.mod_eq_of_lt (narrowNat_lt nanSig a)]

end Sys2Proof.Machine

namespace Sys2Proof

open Machine

/-- Settles O32: the piece and the converter share the NaN exit, the candidate, and what is made of it; clamping
changes no candidate. -/
theorem narrowIsTheWholeAlgorithm : Obligations.NarrowIsTheWholeAlgorithm := by
  unfold Obligations.NarrowIsTheWholeAlgorithm
  refine ⟨fun a s => ?_, fun a nanSig => ⟨?_, narrowClamped_eq _ a⟩⟩
  · rw [exec_narrow, respond_next_iff, narrowPiece_eq]
    rfl
  · rw [narrowWith_toNat_eq_narrowNat, narrowPiece_eq]

end Sys2Proof
end

section
/-! The converter in fixed-width logic (70_reset_and_hazards.md R93, log 21): each of its values, read as a number, is
the converter's on unbounded integers, because it fits its width. -/

namespace Sys2Proof.Machine

/-- Fields written one after another are the assembled pattern (30_encoding.md R32). -/
theorem append_fields_toNat (s : BitVec 1) (e : BitVec 5) (m : BitVec 10) :
    (s ++ e ++ m : BitVec 16).toNat = assemble16 s.toNat e.toNat m.toNat := by
  have he := e.isLt
  have hm := m.isLt
  rw [assemble16_eq_add he hm, BitVec.toNat_append, BitVec.toNat_append, ← Nat.shiftLeft_add_eq_or_of_lt he,
    ← Nat.shiftLeft_add_eq_or_of_lt hm, Nat.shiftLeft_eq, Nat.shiftLeft_eq]
  omega

theorem zero_append_toNat {n : Nat} (x : BitVec n) : (0#1 ++ x).toNat = x.toNat := by
  simp

theorem one_append_toNat {n : Nat} (x : BitVec n) : (1#1 ++ x).toNat = 2 ^ n + x.toNat := by
  rw [BitVec.toNat_append, ← Nat.shiftLeft_add_eq_or_of_lt x.isLt, Nat.shiftLeft_eq]
  simp

/-- The round-up decision on words is the one on their numbers (42_rounding.md R51). -/
theorem fixed_roundUp (main : BitVec 11) (remainder : BitVec 13) (sticky : Bool) :
    (decide (remainder > 0x1000#13) || (remainder == 0x1000#13 && (main.getLsbD 0 || sticky))) =
      roundUp main.toNat remainder.toNat sticky := by
  rw [roundUp, BitVec.testBit_toNat]
  congr 2
  rw [Bool.eq_iff_iff, beq_iff_eq, beq_iff_eq, ← BitVec.toNat_inj]
  rfl

/-- The 12-bit sum holds the incremented mantissa. -/
theorem fixed_increment_toNat (main : BitVec 11) (up : Bool) :
    ((0#1 ++ main : BitVec 12) + (if up then 1#12 else 0#12)).toNat = main.toNat + if up then 1 else 0 := by
  have hmain := main.isLt
  have hzero : (0#1 ++ main : BitVec 12).toNat = main.toNat := zero_append_toNat main
  cases up with
  | false => simpa using hzero
  | true =>
    rw [if_pos rfl, if_pos rfl, BitVec.toNat_add, hzero, BitVec.toNat_ofNat]
    omega

/-- The signed 9-bit exponent holds the rounded exponent. -/
theorem fixed_exponent_toInt {e : BitVec 9} (h : e.toInt ≤ 128) (carry : Prop) [Decidable carry] :
    (if carry then e + 1#9 else e).toInt = if carry then e.toInt + 1 else e.toInt := by
  have hlow := BitVec.le_toInt e
  split_ifs
  · rw [BitVec.toInt_add, Int.bmod_eq_of_le]
    · rfl
    · have : (1#9).toInt = 1 := by decide
      omega
    · have : (1#9).toInt = 1 := by decide
      omega
  · rfl

/-- Steps 7 and 8 in fixed width, for a rounded mantissa and exponent. -/
def fixedEmit (s : BitVec 1) (e : BitVec 9) (main : BitVec 11) : BitPattern16 :=
  if (15#9).slt e then (s ++ 0x1F#5 ++ 0#10 : BitVec 16)
  else if main < 0x400#11 && e == -14#9 then (s ++ 0#5 ++ main.extractLsb' 0 10 : BitVec 16)
  else (s ++ (e + 15#9).truncate 5 ++ main.extractLsb' 0 10 : BitVec 16)

/-- A 9-bit exponent re-biased in five bits (43_converter.md R63). -/
theorem fixed_bias_toNat {e : BitVec 9} (hlow : -14 ≤ e.toInt) (hhigh : e.toInt ≤ 15) :
    ((e + 15#9).truncate 5).toNat = (e.toInt + 15).toNat &&& 0x1F := by
  have hint := BitVec.toInt_eq_toNat_cond e
  have he := e.isLt
  rw [BitVec.truncate_eq_setWidth, BitVec.toNat_setWidth, BitVec.toNat_add, BitVec.toNat_ofNat]
  refine Eq.trans ?_ (and_low _ 5).symm
  split_ifs at hint <;> omega

theorem fixedEmit_toNat (s : BitVec 1) {e : BitVec 9} (main : BitVec 11) (hlow : -14 ≤ e.toInt) :
    (fixedEmit s e main).toNat = emit s.toNat e.toInt main.toNat := by
  have hbig : (15#9).slt e = true ↔ e.toInt > Config.emax16 := BitVec.slt_iff_toInt_lt
  have hsub : (decide (main < 0x400#11) && e == -14#9) = true ↔ main.toNat < 0x400 ∧ e.toInt = Config.emin16 := by
    rw [Bool.and_eq_true, decide_eq_true_iff, beq_iff_eq, BitVec.lt_def, ← BitVec.toInt_inj]
    rfl
  have hsig : (main.extractLsb' 0 10).toNat = main.toNat &&& 0x3FF := by
    rw [BitVec.extractLsb'_toNat]
    exact (and_low main.toNat 10).symm
  unfold fixedEmit emit
  rw [if_congr hbig rfl rfl, if_congr hsub rfl rfl]
  split_ifs with hinfinity hsubnormal
  · exact append_fields_toNat s 0x1F#5 0#10
  · rw [append_fields_toNat, hsig]
    rfl
  · rw [append_fields_toNat, hsig, fixed_bias_toNat hlow (Int.not_lt.mp hinfinity)]

/-- The renormalised mantissa of the 12-bit sum `t` fits eleven bits (42_rounding.md R52). -/
theorem fixed_renormalised_toNat (t : BitVec 12) :
    (if t > 0x7FF#12 then (t >>> 1).truncate 11 else t.truncate 11 : BitVec 11).toNat =
      if t.toNat > 0x7FF then t.toNat >>> 1 else t.toNat := by
  have ht := t.isLt
  have hcarry : t > 0x7FF#12 ↔ t.toNat > 0x7FF := BitVec.lt_def
  rw [← if_congr hcarry rfl rfl]
  split_ifs with h
  · rw [BitVec.truncate_eq_setWidth, BitVec.toNat_setWidth, BitVec.toNat_ushiftRight, Nat.shiftRight_eq_div_pow]
    omega
  · rw [hcarry] at h
    rw [BitVec.truncate_eq_setWidth, BitVec.toNat_setWidth]
    omega

/-- Steps 5 to 8 in fixed width are those of the converter. -/
theorem fixedFinish_toNat (s : BitVec 1) {e : BitVec 9} (main : BitVec 11) (remainder : BitVec 13) (sticky : Bool)
    (hlow : -14 ≤ e.toInt) (hhigh : e.toInt ≤ 128) :
    (fixedFinish s e main remainder sticky).toNat = finish s.toNat ⟨e.toInt, main.toNat, remainder.toNat, sticky⟩ := by
  have hsum := fixed_increment_toNat main (roundUp main.toNat remainder.toNat sticky)
  have hcarry : ∀ t : BitVec 12, t > 0x7FF#12 ↔ t.toNat > 0x7FF := fun t => BitVec.lt_def
  rw [← fixed_roundUp] at hsum
  refine (fixedEmit_toNat s _ ?_).trans ?_
  · rw [fixed_exponent_toInt hhigh]
    split_ifs <;> omega
  · rw [fixed_exponent_toInt hhigh, fixed_renormalised_toNat, if_congr (hcarry _) rfl rfl, hsum, fixed_roundUp]
    simp only [finish, roundMain]
    split_ifs <;> simp

/-- The 9-bit exponent of a 32-bit pattern is signed, and nothing overflows in it. -/
theorem fixed_unbiased (E : BitVec 8) :
    ((0#1 ++ E : BitVec 9) - 127#9).toNat = (E.toNat + 385) % 2 ^ 9 ∧
      ((0#1 ++ E : BitVec 9) - 127#9).toInt = unbiased E.toNat 127 := by
  have hE := E.isLt
  have hzero : (0#1 ++ E : BitVec 9).toNat = E.toNat := zero_append_toNat E
  have hnat : ((0#1 ++ E : BitVec 9) - 127#9).toNat = (E.toNat + 385) % 2 ^ 9 := by
    rw [BitVec.toNat_sub, hzero, BitVec.toNat_ofNat]
    omega
  refine ⟨hnat, ?_⟩
  rw [BitVec.toInt_eq_toNat_cond, hnat, unbiased]
  split_ifs <;> omega

/-- On the subnormal path the shift amount fits seven bits and, clamped, five. -/
theorem fixedShift_toNat {e : BitVec 9} {E : Nat} (he : e.toNat = (E + 385) % 2 ^ 9) (hE : E < 113) :
    (fixedShift e).toNat = min 24 (113 - E) := by
  have hshift : ((-(e + 14#9)).truncate 7).toNat = 113 - E := by
    rw [BitVec.truncate_eq_setWidth, BitVec.toNat_setWidth, BitVec.toNat_neg, BitVec.toNat_add, BitVec.toNat_ofNat, he]
    omega
  have hclamp : (-(e + 14#9)).truncate 7 ≥ 24#7 ↔ 113 - E ≥ 24 := by
    rw [← hshift]
    exact BitVec.le_def
  unfold fixedShift
  simp only [hclamp]
  split_ifs with h
  · rw [Nat.min_eq_left h]
    rfl
  · rw [BitVec.truncate_eq_setWidth, BitVec.toNat_setWidth, hshift, Nat.min_eq_right (by omega)]
    omega

/-- Beyond 24 a larger shift of a 24-bit significand gives nothing else. -/
theorem div_two_pow_min {v : Nat} (hv : v < 2 ^ 24) (shift : Nat) : v / 2 ^ min 24 shift = v / 2 ^ shift := by
  obtain hle | hgt := Nat.le_total shift 24
  · rw [Nat.min_eq_right hle]
  · have hpow : 2 ^ 24 ≤ 2 ^ shift := Nat.pow_le_pow_right (by decide) hgt
    rw [Nat.min_eq_left hgt, Nat.div_eq_of_lt hv, Nat.div_eq_of_lt (by omega)]

/-- A shift by one or more leaves 23 bits of the 24. -/
theorem fixedAligned_toNat (m : BitVec 23) {k : BitVec 5} {shift : Nat} (hk : k.toNat = min 24 shift)
    (hpos : 1 ≤ shift) :
    (fixedAligned m k).toNat = (2 ^ 23 + m.toNat) / 2 ^ shift := by
  have hm := m.isLt
  have hone : (1#1 ++ m : BitVec 24).toNat = 2 ^ 23 + m.toNat := one_append_toNat m
  have hhalf : (2 ^ 23 + m.toNat) / 2 ^ shift ≤ (2 ^ 23 + m.toNat) / 2 ^ 1 :=
    Nat.div_le_div_left (Nat.pow_le_pow_right (by decide) hpos) (by decide)
  rw [fixedAligned, BitVec.truncate_eq_setWidth, BitVec.toNat_setWidth, BitVec.ushiftRight_eq',
    BitVec.toNat_ushiftRight, hone, Nat.shiftRight_eq_div_pow, hk, div_two_pow_min (by omega)]
  exact Nat.mod_eq_of_lt (Nat.lt_of_le_of_lt hhalf (by omega))

/-- The mask of the lost bits in 23 bits; for a shift of 23 it is all ones. -/
theorem fixed_mask_toNat {k : BitVec 5} (hk : k.toNat < 24) : ((1#23 <<< k) - 1#23).toNat = 2 ^ k.toNat - 1 := by
  rw [BitVec.toNat_sub, BitVec.shiftLeft_eq', BitVec.toNat_shiftLeft, Nat.shiftLeft_eq]
  show (2 ^ 23 - 1 + 1 * 2 ^ k.toNat % 2 ^ 23) % 2 ^ 23 = _
  obtain hlt | heq : k.toNat < 23 ∨ k.toNat = 23 := by omega
  · have hpow : 2 ^ k.toNat < 2 ^ 23 := Nat.pow_lt_pow_right (by decide) hlt
    have hpos : 0 < 2 ^ k.toNat := Nat.two_pow_pos _
    omega
  · rw [heq]
    rfl

theorem fixedSticky_eq (m : BitVec 23) {k : BitVec 5} {shift : Nat} (hk : k.toNat = min 24 shift) :
    fixedSticky m k = decide (m.toNat % 2 ^ shift ≠ 0) := by
  have hm := m.isLt
  have hclamp : k ≥ 24#5 ↔ shift ≥ 24 := by
    refine BitVec.le_def.trans ?_
    rw [hk]
    exact Nat.le_min.trans (and_iff_right (Nat.le_refl 24))
  rw [fixedSticky, Bool.eq_iff_iff, decide_eq_true_iff]
  simp only [hclamp]
  split_ifs with h
  · have hpow : 2 ^ 24 ≤ 2 ^ shift := Nat.pow_le_pow_right (by decide) h
    rw [bne_iff_ne, Ne, ← BitVec.toNat_inj, Nat.mod_eq_of_lt (by omega)]
    rfl
  · rw [bne_iff_ne, Ne, ← BitVec.toNat_inj, BitVec.toNat_and, fixed_mask_toNat (by omega), hk,
      Nat.min_eq_right (by omega), and_low]
    rfl

/-- The subnormal path's words are the aligned candidate (43_converter.md R60). -/
theorem fixed_alignSubnormal (m : BitVec 23) {e : BitVec 9} {E : Nat} (he : e.toNat = (E + 385) % 2 ^ 9)
    (hE : E < 113) :
    (⟨(-14#9 : BitVec 9).toInt, (0#1 ++ (fixedAligned m (fixedShift e)).extractLsb' 13 10 : BitVec 11).toNat,
      ((fixedAligned m (fixedShift e)).extractLsb' 0 13).toNat, fixedSticky m (fixedShift e)⟩ : Candidate) =
      alignSubnormal m.toNat (unbiased E 127) := by
  have hk := fixedShift_toNat he hE
  have hshift : (-(unbiased E 127 + 14)).toNat = 113 - E := by unfold unbiased; omega
  have haligned := fixedAligned_toNat m hk (by omega)
  have hlt := (fixedAligned m (fixedShift e)).isLt
  have hmain : (0#1 ++ (fixedAligned m (fixedShift e)).extractLsb' 13 10 : BitVec 11).toNat =
      (alignSubnormal m.toNat (unbiased E 127)).main := by
    rw [alignSubnormal_main m.isLt, hshift, ← haligned]
    refine (zero_append_toNat _).trans ?_
    rw [BitVec.extractLsb'_toNat, Nat.shiftRight_eq_div_pow]
    omega
  have hremainder : ((fixedAligned m (fixedShift e)).extractLsb' 0 13).toNat =
      (alignSubnormal m.toNat (unbiased E 127)).remainder := by
    rw [alignSubnormal_remainder m.isLt, hshift, ← haligned, BitVec.extractLsb'_toNat]
    rfl
  have hsticky : fixedSticky m (fixedShift e) = (alignSubnormal m.toNat (unbiased E 127)).sticky := by
    rw [alignSubnormal_sticky, hshift, fixedSticky_eq m hk]
  rw [hmain, hremainder, hsticky]
  rfl

/-- The normal path's words are the candidate of step 3 (43_converter.md R59). -/
theorem fixed_candidate (m : BitVec 23) (e : Int) :
    (⟨e, (1#1 ++ m.extractLsb' 13 10 : BitVec 11).toNat, (m.extractLsb' 0 13).toNat, false⟩ : Candidate) =
      candidate m.toNat e := by
  have hm := m.isLt
  have hmain : (1#1 ++ m.extractLsb' 13 10 : BitVec 11).toNat = (candidate m.toNat e).main := by
    rw [candidate_main m.isLt]
    refine (one_append_toNat _).trans ?_
    rw [BitVec.extractLsb'_toNat, Nat.shiftRight_eq_div_pow]
    omega
  have hremainder : (m.extractLsb' 0 13).toNat = (candidate m.toNat e).remainder := by
    rw [candidate_remainder, BitVec.extractLsb'_toNat]
    rfl
  rw [hmain, hremainder]
  rfl

/-- The fixed-width converter, its fields named as the decomposer names them. -/
theorem narrowFixed_eq (nanSig : BitVec 10) (a : BitPattern32) : narrowFixed nanSig a =
    if bexp32 a == 0xFF#8 && sig32 a != 0#23 then (sign32 a ++ 0x1F#5 ++ nanSig : BitVec 16)
    else if ((0#1 ++ bexp32 a : BitVec 9) - 127#9).slt (-14#9) then
      fixedFinish (sign32 a) (-14#9)
        (0#1 ++ (fixedAligned (sig32 a) (fixedShift ((0#1 ++ bexp32 a : BitVec 9) - 127#9))).extractLsb' 13 10)
        ((fixedAligned (sig32 a) (fixedShift ((0#1 ++ bexp32 a : BitVec 9) - 127#9))).extractLsb' 0 13)
        (fixedSticky (sig32 a) (fixedShift ((0#1 ++ bexp32 a : BitVec 9) - 127#9)))
    else fixedFinish (sign32 a) ((0#1 ++ bexp32 a : BitVec 9) - 127#9)
      (1#1 ++ (sig32 a).extractLsb' 13 10) ((sig32 a).extractLsb' 0 13) false := rfl

theorem narrowFixed_toNat (nanSig : BitVec 10) (a : BitPattern32) :
    (narrowFixed nanSig a).toNat = narrowNat nanSig.toNat a := by
  have hbexp := (bexp32 a).isLt
  obtain ⟨hnat, hint⟩ := fixed_unbiased (bexp32 a)
  have hnan : (bexp32 a == 0xFF#8 && sig32 a != 0#23) = true ↔ class32 a = .nan := by
    rw [class32_eq_iff_classRow, Bool.and_eq_true, beq_iff_eq, bne_iff_ne, Ne, ← BitVec.toNat_inj, ← BitVec.toNat_inj]
    rfl
  have hlow : ((0#1 ++ bexp32 a : BitVec 9) - 127#9).slt (-14#9) = true ↔ unbiased (bexp32 a).toNat 127 < -14 := by
    rw [BitVec.slt_iff_toInt_lt, hint]
    rfl
  rw [narrowFixed_eq, if_congr hnan rfl rfl, if_congr hlow rfl rfl]
  split_ifs with hclass hpath
  · rw [append_fields_toNat, narrowNat_of_nan hclass]
    rfl
  · have hE : (bexp32 a).toNat < 113 := by unfold unbiased at hpath; omega
    rw [narrowNat_of_not_nan hclass, align_of_low hpath, fixedFinish_toNat _ _ _ _ (by decide) (by decide),
      fixed_alignSubnormal (sig32 a) hnat hE]
  · have hhigh : unbiased (bexp32 a).toNat 127 ≤ 128 := by unfold unbiased; omega
    rw [narrowNat_of_not_nan hclass, align_of_high (Int.not_lt.mp hpath),
      fixedFinish_toNat _ _ _ _ (by omega) (by omega), fixed_candidate, hint]

end Sys2Proof.Machine

namespace Sys2Proof

open Machine

/-- Settles O33: both patterns are the converter's exact number. -/
theorem fixedWidthConverterGivesTheSame : Obligations.FixedWidthConverterGivesTheSame := by
  unfold Obligations.FixedWidthConverterGivesTheSame
  intro a nanSig
  apply BitVec.eq_of_toNat_eq
  rw [narrowFixed_toNat, narrowWith_toNat_eq_narrowNat]

end Sys2Proof
end
